-- ==== Sys2Proof/Word.lean ====
section
/-! DEFINITION. The two word types of the block (00_scope.md R10) and the plainest arithmetic on them. -/

namespace Sys2Proof

/-- A byte: 8 bits, unsigned (R10). General registers, timers and memory cells are bytes. -/
abbrev Byte := BitVec 8

/-- A word: 16 bits, unsigned (R10). The pc, I, the stack entries and an instruction word are words. -/
abbrev Word := BitVec 16

/-- A 12-bit immediate address `nnn` (R91, R92). -/
abbrev Addr := BitVec 12

/-- `zext_16` of a byte (R11). -/
def Byte.zext (b : Byte) : Word := b.setWidth 16

/-- `zext_16` of a 12-bit address `nnn` (R11, R92). -/
def Addr.zext (a : Addr) : Word := a.setWidth 16

end Sys2Proof
end

