-- ==== Sys2Proof/WellFormed.lean ====
section
/-! DEFINITION. Which 16-bit words are well formed: the opcode table of 30_encoding.md R95 as data.
Every operand of `Instr` has exactly the type of its field (R91: 4-bit indices and counts, an 8-bit byte, a 12-bit address),
so an out-of-range operand cannot be written (R21, D37) and the check is on the raw word: it must select a row (R96). -/

namespace Sys2Proof

/-- One row of the opcode table: the word `w` selects it when `w AND mask = pattern` (R95). -/
structure Row where
  mnemonic : String
  mask     : Word
  pattern  : Word
deriving DecidableEq, Repr

/-- `w` selects the row (R95). -/
def Row.selects (r : Row) (w : Word) : Bool := (w &&& r.mask) == r.pattern

/-- The 34 rows of R95, in its order, under the mnemonics of opcode_table.json. -/
def rows : List Row :=
  [⟨"CLS", 0xFFFF#16, 0x00E0#16⟩,
   ⟨"RET", 0xFFFF#16, 0x00EE#16⟩,
   ⟨"JP", 0xF000#16, 0x1000#16⟩,
   ⟨"CALL", 0xF000#16, 0x2000#16⟩,
   ⟨"SE_imm", 0xF000#16, 0x3000#16⟩,
   ⟨"SNE_imm", 0xF000#16, 0x4000#16⟩,
   ⟨"SE_reg", 0xF00F#16, 0x5000#16⟩,
   ⟨"LD_imm", 0xF000#16, 0x6000#16⟩,
   ⟨"ADD_imm", 0xF000#16, 0x7000#16⟩] ++
  [⟨"LD_reg", 0xF00F#16, 0x8000#16⟩,
   ⟨"OR", 0xF00F#16, 0x8001#16⟩,
   ⟨"AND", 0xF00F#16, 0x8002#16⟩,
   ⟨"XOR", 0xF00F#16, 0x8003#16⟩,
   ⟨"ADD_reg", 0xF00F#16, 0x8004#16⟩,
   ⟨"SUB", 0xF00F#16, 0x8005#16⟩,
   ⟨"SHR", 0xF00F#16, 0x8006#16⟩,
   ⟨"SUBN", 0xF00F#16, 0x8007#16⟩,
   ⟨"SHL", 0xF00F#16, 0x800E#16⟩] ++
  [⟨"SNE_reg", 0xF00F#16, 0x9000#16⟩,
   ⟨"LD_I", 0xF000#16, 0xA000#16⟩,
   ⟨"JP_V0", 0xF000#16, 0xB000#16⟩,
   ⟨"RND", 0xF000#16, 0xC000#16⟩,
   ⟨"DRW", 0xF000#16, 0xD000#16⟩,
   ⟨"SKP", 0xF0FF#16, 0xE09E#16⟩,
   ⟨"SKNP", 0xF0FF#16, 0xE0A1#16⟩,
   ⟨"LD_Vx_DT", 0xF0FF#16, 0xF007#16⟩,
   ⟨"LD_Vx_K", 0xF0FF#16, 0xF00A#16⟩] ++
  [⟨"LD_DT_Vx", 0xF0FF#16, 0xF015#16⟩,
   ⟨"LD_ST_Vx", 0xF0FF#16, 0xF018#16⟩,
   ⟨"ADD_I", 0xF0FF#16, 0xF01E#16⟩,
   ⟨"LD_F", 0xF0FF#16, 0xF029#16⟩,
   ⟨"LD_B", 0xF0FF#16, 0xF033#16⟩,
   ⟨"LD_mem_Vx", 0xF0FF#16, 0xF055#16⟩,
   ⟨"LD_Vx_mem", 0xF0FF#16, 0xF065#16⟩]

/-- The well-formedness check of a word: some row selects it. Every other word is illegal (R96). -/
def wellFormedWord (w : Word) : Bool := rows.any (fun r => r.selects w)

/-- The mnemonic of an instruction's row in opcode_table.json. -/
def Instr.mnemonic : Instr → String
  | .cls => "CLS"
  | .ret => "RET"
  | .jp .. => "JP"
  | .call .. => "CALL"
  | .seImm .. => "SE_imm"
  | .sneImm .. => "SNE_imm"
  | .seReg .. => "SE_reg"
  | .ldImm .. => "LD_imm"
  | .addImm .. => "ADD_imm"
  | .ldReg .. => "LD_reg"
  | .orReg .. => "OR"
  | .andReg .. => "AND"
  | .xorReg .. => "XOR"
  | .addReg .. => "ADD_reg"
  | .sub .. => "SUB"
  | .shr .. => "SHR"
  | .subn .. => "SUBN"
  | .shl .. => "SHL"
  | .sneReg .. => "SNE_reg"
  | .ldI .. => "LD_I"
  | .jpV0 .. => "JP_V0"
  | .rnd .. => "RND"
  | .drw .. => "DRW"
  | .skp .. => "SKP"
  | .sknp .. => "SKNP"
  | .ldVxDt .. => "LD_Vx_DT"
  | .ldVxK .. => "LD_Vx_K"
  | .ldDtVx .. => "LD_DT_Vx"
  | .ldStVx .. => "LD_ST_Vx"
  | .addI .. => "ADD_I"
  | .ldF .. => "LD_F"
  | .ldB .. => "LD_B"
  | .ldMemVx .. => "LD_mem_Vx"
  | .ldVxMem .. => "LD_Vx_mem"

end Sys2Proof
end

