-- ==== Sys2Proof/Decode.lean ====
section
/-! DEFINITION. The decoder, total on any word and on any bytes, and the encoder (30_encoding.md R90 to R98). -/

namespace Sys2Proof

/-- `w[hi:lo]` as a number, given by its lowest bit and its width (00_scope.md R11). -/
def slice (w : Word) (lo width : Nat) : Nat := w.toNat / 2 ^ lo % 2 ^ width

/-- `op = w[15:12]`, the opcode family (R91). -/
def opField (w : Word) : Nat := slice w 12 4

/-- `x = w[11:8]` (R91). -/
def xField (w : Word) : Reg := ⟨slice w 8 4, Nat.mod_lt _ (by decide)⟩

/-- `y = w[7:4]` (R91). -/
def yField (w : Word) : Reg := ⟨slice w 4 4, Nat.mod_lt _ (by decide)⟩

/-- `n = w[3:0]` (R91). -/
def nField (w : Word) : Fin 16 := ⟨slice w 0 4, Nat.mod_lt _ (by decide)⟩

/-- `kk = w[7:0]` (R91). -/
def kkField (w : Word) : Byte := BitVec.ofNat 8 (slice w 0 8)

/-- `nnn = w[11:0]` (R91). -/
def nnnField (w : Word) : Addr := BitVec.ofNat 12 (slice w 0 12)

/-- Family 0x0: the whole word must be 0x00E0 or 0x00EE (R94). Every other 0nnn word is illegal (R97). -/
def decode0 (w : Word) : Option Instr :=
  if w.toNat = 0x00E0 then some .cls
  else if w.toNat = 0x00EE then some .ret
  else none

/-- Family 0x8, keyed by the lowest nibble (R94). -/
def decode8 (x y : Reg) (n : Nat) : Option Instr :=
  match n with
  | 0x0 => some (.ldReg x y)
  | 0x1 => some (.orReg x y)
  | 0x2 => some (.andReg x y)
  | 0x3 => some (.xorReg x y)
  | 0x4 => some (.addReg x y)
  | 0x5 => some (.sub x y)
  | 0x6 => some (.shr x y)
  | 0x7 => some (.subn x y)
  | 0xE => some (.shl x y)
  | _   => none

/-- Family 0xE, keyed by the lowest byte (R94). -/
def decodeE (x : Reg) (kk : Nat) : Option Instr :=
  if kk = 0x9E then some (.skp x)
  else if kk = 0xA1 then some (.sknp x)
  else none

/-- Family 0xF, keyed by the lowest byte (R94). -/
def decodeF (x : Reg) (kk : Nat) : Option Instr :=
  if kk = 0x07 then some (.ldVxDt x)
  else if kk = 0x0A then some (.ldVxK x)
  else if kk = 0x15 then some (.ldDtVx x)
  else if kk = 0x18 then some (.ldStVx x)
  else if kk = 0x1E then some (.addI x)
  else if kk = 0x29 then some (.ldF x)
  else if kk = 0x33 then some (.ldB x)
  else if kk = 0x55 then some (.ldMemVx x)
  else if kk = 0x65 then some (.ldVxMem x)
  else none

/-- Decode one word (R94): `none` is an illegal word (R96), which the step turns into `UnimplementedOpcode`. -/
def decode (w : Word) : Option Instr :=
  match opField w with
  | 0x0 => decode0 w
  | 0x1 => some (.jp (nnnField w))
  | 0x2 => some (.call (nnnField w))
  | 0x3 => some (.seImm (xField w) (kkField w))
  | 0x4 => some (.sneImm (xField w) (kkField w))
  | 0x5 => if nField w = 0 then some (.seReg (xField w) (yField w)) else none
  | 0x6 => some (.ldImm (xField w) (kkField w))
  | 0x7 => some (.addImm (xField w) (kkField w))
  | 0x8 => decode8 (xField w) (yField w) (nField w).val
  | 0x9 => if nField w = 0 then some (.sneReg (xField w) (yField w)) else none
  | 0xA => some (.ldI (nnnField w))
  | 0xB => some (.jpV0 (nnnField w))
  | 0xC => some (.rnd (xField w) (kkField w))
  | 0xD => some (.drw (xField w) (yField w) (nField w))
  | 0xE => decodeE (xField w) (kkField w).toNat
  | 0xF => decodeF (xField w) (kkField w).toNat
  | _   => none

/-- `hi ++ lo`: the word of two bytes, high byte first (20_memory.md R64). -/
def wordOfBytes (hi lo : Byte) : Word := BitVec.ofNat 16 (hi.toNat * 0x100 + lo.toNat)

/-- The byte of a word that stands at the lower address (R64). -/
def hiByte (w : Word) : Byte := BitVec.ofNat 8 (w.toNat / 0x100)

/-- The byte of a word that stands at the higher address (R64). -/
def loByte (w : Word) : Byte := BitVec.ofNat 8 w.toNat

/-- Why bytes are not an instruction. -/
inductive Reject where
  /-- The first two bytes are a word that no row selects (R96). -/
  | unimplementedOpcode (w : Word)
  /-- Fewer than the two bytes every instruction takes (R90). -/
  | truncated
deriving DecidableEq, Repr

/-- Decode the instruction at the head of a byte sequence, with the bytes after it. It always takes 2 bytes (R90). -/
def decodeBytes : List Byte → Except Reject (Instr × List Byte)
  | hi :: lo :: rest =>
    match decode (wordOfBytes hi lo) with
    | some i => .ok (i, rest)
    | none   => .error (.unimplementedOpcode (wordOfBytes hi lo))
  | _ => .error .truncated

/-- Assemble an `op nnn` word (R91). -/
def encodeNnn (op : Nat) (nnn : Addr) : Word := BitVec.ofNat 16 (op * 0x1000 + nnn.toNat)

/-- Assemble an `op x kk` word (R91). -/
def encodeXkk (op : Nat) (x : Reg) (kk : Byte) : Word := BitVec.ofNat 16 (op * 0x1000 + x.val * 0x100 + kk.toNat)

/-- Assemble an `op x y n` word (R91). -/
def encodeXyn (op : Nat) (x y : Reg) (n : Fin 16) : Word :=
  BitVec.ofNat 16 (op * 0x1000 + x.val * 0x100 + y.val * 0x10 + n.val)

/-- The word of an instruction (R95). -/
def encode : Instr → Word
  | .cls => 0x00E0
  | .ret => 0x00EE
  | .jp nnn => encodeNnn 0x1 nnn
  | .call nnn => encodeNnn 0x2 nnn
  | .seImm x kk => encodeXkk 0x3 x kk
  | .sneImm x kk => encodeXkk 0x4 x kk
  | .seReg x y => encodeXyn 0x5 x y 0x0
  | .ldImm x kk => encodeXkk 0x6 x kk
  | .addImm x kk => encodeXkk 0x7 x kk
  | .ldReg x y => encodeXyn 0x8 x y 0x0
  | .orReg x y => encodeXyn 0x8 x y 0x1
  | .andReg x y => encodeXyn 0x8 x y 0x2
  | .xorReg x y => encodeXyn 0x8 x y 0x3
  | .addReg x y => encodeXyn 0x8 x y 0x4
  | .sub x y => encodeXyn 0x8 x y 0x5
  | .shr x y => encodeXyn 0x8 x y 0x6
  | .subn x y => encodeXyn 0x8 x y 0x7
  | .shl x y => encodeXyn 0x8 x y 0xE
  | .sneReg x y => encodeXyn 0x9 x y 0x0
  | .ldI nnn => encodeNnn 0xA nnn
  | .jpV0 nnn => encodeNnn 0xB nnn
  | .rnd x kk => encodeXkk 0xC x kk
  | .drw x y n => encodeXyn 0xD x y n
  | .skp x => encodeXkk 0xE x 0x9E
  | .sknp x => encodeXkk 0xE x 0xA1
  | .ldVxDt x => encodeXkk 0xF x 0x07
  | .ldVxK x => encodeXkk 0xF x 0x0A
  | .ldDtVx x => encodeXkk 0xF x 0x15
  | .ldStVx x => encodeXkk 0xF x 0x18
  | .addI x => encodeXkk 0xF x 0x1E
  | .ldF x => encodeXkk 0xF x 0x29
  | .ldB x => encodeXkk 0xF x 0x33
  | .ldMemVx x => encodeXkk 0xF x 0x55
  | .ldVxMem x => encodeXkk 0xF x 0x65

/-- The two bytes of an instruction as memory holds them (R64). -/
def encodeBytes (i : Instr) : List Byte := [hiByte (encode i), loByte (encode i)]

/-- The instruction the decoder reads from the opcode table's numbering of a word of `nbits` bits: the word is laid out
big-endian, as memory stores it, and given to the decoder. -/
def decodeTableWord (nbits w : Nat) : Option Instr :=
  let word : Word := BitVec.ofNat 16 (w % 2 ^ nbits)
  match decodeBytes [hiByte word, loByte word] with
  | .ok (i, _) => some i
  | .error _   => none

end Sys2Proof
end

