-- ==== Sys2Proof/Config.lean ====
section
/-! DEFINITION. The types of the implementation parameters of 00_scope.md R9 and the one free value of the model.
The VALUES of the parameters stand in Machine/Params.lean, where a later repair may mend them. -/

namespace Sys2Proof

/-- `SHIFT_SRC` (R9, D10): the register that 8xy6 and 8xyE shift. -/
inductive ShiftSrc where
  | vx
  | vy
deriving DecidableEq, Repr

/-- `FONT_OOR` (R9, D15): what Fx29 does with a register value above 0xF. -/
inductive FontOor where
  | fault
  | compute
deriving DecidableEq, Repr

/-- The random byte of a STEP the host has issued without naming one (R52, D20, U7: a free draw, every value admitted).
FREE VALUE: no body that Lean can see, so nothing is provable of any draw. Applied to the counter `State.draws`.
Assumption log entry 2. -/
opaque Config.freeDraw : Nat → Byte

end Sys2Proof
end

