-- ==== Sys2Proof/Machine/Params.lean ====
section
/-! DEFINITION. The values this spec gives the implementation parameters (00_scope.md R9, 92_eei_decisions.md).
They stand under Machine/ so that a later repair may mend one. -/

namespace Sys2Proof.Machine

/-- `SHIFT_SRC = Vx` (D10). UNVERIFIED: the spec's own decision. Log entry 6. -/
def shiftSrc : ShiftSrc := .vx

/-- `LDST_INC_I = false` (D14). UNVERIFIED: the spec's own decision. Log entry 7. -/
def ldstIncI : Bool := false

/-- `FONT_OOR = fault` (D15). UNVERIFIED: the spec's own decision. Log entry 8. -/
def fontOor : FontOor := .fault

/-- `FONT`: 16 glyphs of 5 bytes (R42, D17). UNVERIFIED: the spec takes the bytes from general knowledge. Log entry 9. -/
def font : List Byte :=
  [0xF0, 0x90, 0x90, 0x90, 0xF0] ++ [0x20, 0x60, 0x20, 0x20, 0x70] ++
  [0xF0, 0x10, 0xF0, 0x80, 0xF0] ++ [0xF0, 0x10, 0xF0, 0x10, 0xF0] ++
  [0x90, 0x90, 0xF0, 0x10, 0x10] ++ [0xF0, 0x80, 0xF0, 0x10, 0xF0] ++
  [0xF0, 0x80, 0xF0, 0x90, 0xF0] ++ [0xF0, 0x10, 0x20, 0x40, 0x40] ++
  [0xF0, 0x90, 0xF0, 0x90, 0xF0] ++ [0xF0, 0x90, 0xF0, 0x10, 0xF0] ++
  [0xF0, 0x90, 0xF0, 0x90, 0x90] ++ [0xE0, 0x90, 0xE0, 0x90, 0xE0] ++
  [0xF0, 0x80, 0x80, 0x80, 0xF0] ++ [0xE0, 0x90, 0x90, 0x90, 0xE0] ++
  [0xF0, 0x80, 0xF0, 0x80, 0xF0] ++ [0xF0, 0x80, 0xF0, 0x80, 0x80]

end Sys2Proof.Machine
end

