-- ==== Sys2Proof/Machine/State.lean ====
section
/-! DEFINITION. The state of the block as plain data (10_state.md R47 and R48), the commands its host may issue (R50),
the reasons a step of the MODEL may stop, and the state after reset (70_reset_and_hazards.md R260). -/

namespace Sys2Proof.Machine

/-- The host's five commands (R50), as an inductive value. -/
inductive Command where
  /-- `STEP(rnd)`: fetch and execute one instruction, with the host's random byte (R52, R220). -/
  | step (rnd : Byte)
  /-- `TICK`: count both timers down towards zero (R200). -/
  | tick
  /-- `SET_KEY(k, p)`: key `k` becomes `p` (R37). -/
  | setKey (k : Fin 16) (p : Bool)
  /-- `LOAD(b[0..L-1])`: copy to memory from 0x200, or reject (R70). -/
  | load (bytes : List Byte)
  /-- `RESET`: every field to its reset value (R260). -/
  | reset
deriving DecidableEq, Repr

/-- The fault causes of 60_exceptions.md R221 (codes 1 to 7). They are ARCHITECTURAL: taking one is a next state, with the
latch written (R224). -/
inductive Cause where
  | unimplementedOpcode
  | fetchOutOfBounds
  | dataOutOfBounds
  | stackOverflow
  | stackUnderflow
  | keyIndexOutOfRange
  | fontDigitOutOfRange
deriving DecidableEq, Repr

/-- The memory: (address, byte) pairs in one canonical form (`Memory.wf` in Machine/Ops.lean). An address that is not
listed reads as `Memory.unlisted`, its reset content. -/
abbrev Memory := List Host.Cell

/-- One line of the framebuffer: 64 cells, `x = 0` first (R38). -/
abbrev Line := Vector Bool 64

/-- The framebuffer: 32 lines of 64 cells, row-major (R38). -/
abbrev Framebuffer := Vector Line 32

/-- The state of the block: exactly the fields of R47, then the three of the model's own that carry the host's side. -/
structure State where
  /-- `V[0..15]`, the general registers; `V[15]` is VF (R20, R23). -/
  v : Vector Byte 16
  /-- `I`, the address register (R30). -/
  i : Word
  /-- `pc`, the address of the next instruction to fetch (R24). -/
  pc : Word
  /-- `SP`, the number of stack entries in use, 0..16 (R31). -/
  sp : Fin 17
  /-- `S[0..15]`, the return addresses (R31). -/
  stack : Vector Word 16
  /-- `DT`, the delay timer (R34). -/
  dt : Byte
  /-- `ST`, the sound timer (R35). -/
  st : Byte
  /-- `key[0..15]`: true is pressed (R37). -/
  key : Vector Bool 16
  /-- `fb[x, y]` is `fb[y][x]` (R38). -/
  fb : Framebuffer
  /-- `M[0x000..0xFFF]` (R39, R60). -/
  mem : Memory
  /-- `CAUSE`, the code of the latched fault, 0 for none (R43). -/
  cause : BitVec 4
  /-- `FAULT_PC` (R43). -/
  faultPc : Word
  /-- `FAULT_WORD` (R43). -/
  faultWord : Word
  /-- `KEY_WAIT` (R44). -/
  keyWait : Bool
  /-- `LOAD_ERROR` (R45). -/
  loadError : Bool
  /-- The model's own: the `rnd` argument of the STEP being executed, latched for Cxkk (R52). Log entry 2. -/
  rnd : Byte
  /-- The model's own: how many STEPs have taken a free draw, the index of the next one. Log entry 2. -/
  draws : Nat
  /-- The model's own: the commands the host has issued and the block has not yet accepted, in order (R50, R51).
  When there is none, the host is taken to issue STEP. Log entry 1. -/
  pending : List Command
deriving DecidableEq, Repr

/-- Why a step of the MODEL stops with a fault: never. The source's errors are faults the machine itself latches (R224),
so each is a next state; no state of the block is undefined (R49). Nobody raises a constructor here because there is none
(safe: it is a claim that the machine always goes on, and the spec says so, R225, R270). Log entry 4. -/
inductive Fault where
deriving DecidableEq, Repr

/-- Why a step of the model is refused. -/
inductive Refusal where
  /-- Raised only by an arm of `exec` whose instruction has no meaning yet (safe); in this model no arm is left so. -/
  | notModelled (mnemonic : String)
deriving DecidableEq, Repr

/-- What a meaning answers. -/
abbrev Result := Host.Outcome State Fault Refusal

/-- The state after RESET and after construction (R260, R261): memory lists nothing, so it reads as its reset content.
The last three fields are the model's own (log entries 1 and 2). -/
def State.reset : State where
  v := Vector.replicate 16 0
  i := 0
  pc := 0x200
  sp := 0
  stack := Vector.replicate 16 0
  dt := 0
  st := 0
  key := Vector.replicate 16 false
  fb := Vector.replicate 32 (Vector.replicate 64 false)
  mem := []
  cause := 0
  faultPc := 0
  faultWord := 0
  keyWait := false
  loadError := false
  rnd := 0
  draws := 0
  pending := []

end Sys2Proof.Machine
end

