-- ==== Sys2Proof/Machine/Ops.lean ====
section
/-! DEFINITION. The named operations over memory, registers, the pc and the stack; taking a fault (60_exceptions.md R224) and
the one way out of it (R226); and the fetch and decode half of a step (R220). -/

namespace Sys2Proof.Machine

/-! ### Memory (20_memory.md) -/

/-- What an address that nothing has written reads as: its reset content, FONT in 0x000..0x04F and 0x00 elsewhere
(R39, R61, R260). Log entry 5. -/
def Memory.unlisted (a : Nat) : Byte := font.getD a 0

/-- The byte at an address (R13 `MemRead(a, 1)`). The bound of R62 and R63 is checked before it is called. -/
def Memory.read (a : Nat) : Memory → Byte
  | [] => Memory.unlisted a
  | (b, w) :: rest => if a = b then w else Memory.read a rest

/-- Put an entry at its place in rising order, replacing the one that has its address. -/
def Memory.insert (a : Nat) (v : Byte) : Memory → Memory
  | [] => [(a, v)]
  | (b, w) :: rest =>
    if a < b then (a, v) :: (b, w) :: rest
    else if a = b then (a, v) :: rest
    else (b, w) :: Memory.insert a v rest

/-- Forget what an address holds. -/
def Memory.erase (a : Nat) : Memory → Memory
  | [] => []
  | (b, w) :: rest => if a = b then Memory.erase a rest else (b, w) :: Memory.erase a rest

/-- Write one byte (R13 `MemWrite(a, 1, v)`), keeping the canonical form: the value an unlisted address reads as is not
listed. -/
def Memory.write (a : Nat) (v : Byte) (m : Memory) : Memory :=
  if v = Memory.unlisted a then Memory.erase a m else Memory.insert a v m

/-- Write consecutive bytes in ascending address order (R64, R70). -/
def Memory.writeList (a : Nat) : List Byte → Memory → Memory
  | [], m => m
  | b :: bs, m => Memory.writeList (a + 1) bs (Memory.write a b m)

/-- The canonical form from address `lo` on: addresses strictly rising and below 4096, no entry equal to what an unlisted
address reads as. -/
def Memory.wfFrom (lo : Nat) : Memory → Bool
  | [] => true
  | (a, v) :: rest => decide (lo ≤ a) && decide (a < 0x1000) && decide (v ≠ Memory.unlisted a) && Memory.wfFrom (a + 1) rest

/-- The canonical form of the memory. -/
def Memory.wf (m : Memory) : Bool := Memory.wfFrom 0 m

/-- The byte of memory at an address (the view of R53). -/
def State.readMem (s : State) (a : Nat) : Byte := Memory.read a s.mem

/-- The state with another memory. -/
def State.withMem (m : Memory) (s : State) : State := { s with mem := m }

/-! ### Registers (10_state.md) -/

/-- `V[r]` (R21 `read(index)`). -/
def State.readV (s : State) (r : Reg) : Byte := s.v[r.val]

/-- `V[r] <- b` (R21 `write(index, byte)`): no other register changes. -/
def State.writeV (r : Reg) (b : Byte) (s : State) : State := { s with v := s.v.set r.val b }

/-- The state with another register file. -/
def State.withV (v : Vector Byte 16) (s : State) : State := { s with v := v }

/-- `I <- w` (R30). -/
def State.writeI (w : Word) (s : State) : State := { s with i := w }

/-- `DT <- b` (R34). -/
def State.writeDt (b : Byte) (s : State) : State := { s with dt := b }

/-- `ST <- b` (R35). -/
def State.writeSt (b : Byte) (s : State) : State := { s with st := b }

/-- The state with another framebuffer (R38). -/
def State.withFb (fb : Framebuffer) (s : State) : State := { s with fb := fb }

/-- One framebuffer cell, `fb[x, y]` (R38): row-major, so its linear index is `x + 64*y`. -/
def State.cell (s : State) (x : Fin 64) (y : Fin 32) : Bool := s.fb[y.val][x.val]

/-! ### The program counter (10_state.md R25, R26) -/

/-- What every instruction that completes does around its own effect: the fetch's `pc <- pc0 + 2` (R25), and
`KEY_WAIT <- 0` (R44, R220). Meanings run from the state whose `pc` is `pc0`. -/
def State.advance (s : State) : State := { s with pc := s.pc + 2, keyWait := false }

/-- `pc <- target` (R120): no check, the next fetch checks (R63). -/
def State.jump (target : Word) (s : State) : State := { s with pc := target }

/-- The skip primitive, `pc <- (pc + 2) mod 2^16` (R121). -/
def State.skip (s : State) : State := { s with pc := s.pc + 2 }

/-- `skip` when the condition holds. -/
def State.skipIf (c : Bool) (s : State) : State := { s with pc := if c then s.skip.pc else s.pc }

/-- Fx0A with no key pressed (R194): `pc` stays `pc0` and `KEY_WAIT <- 1`. -/
def State.waitForKey (s : State) : State := { s with keyWait := true }

/-! ### The call stack (10_state.md R32) -/

/-- `push(a)`, or nothing when 16 entries are in use (R32). -/
def State.push (a : Word) (s : State) : Option State :=
  if h : s.sp.val < 16 then
    some { s with stack := s.stack.set s.sp.val a h, sp := ⟨s.sp.val + 1, by omega⟩ }
  else none

/-- `pop()`: the value and the state after, or nothing when the stack is empty (R32). The entry keeps its value. -/
def State.pop (s : State) : Option (Word × State) :=
  if h : 0 < s.sp.val then
    some (s.stack[s.sp.val - 1], { s with sp := ⟨s.sp.val - 1, by omega⟩ })
  else none

/-! ### Faults (60_exceptions.md R221, R224) -/

/-- The code latched in CAUSE (R221). -/
def Cause.code : Cause → BitVec 4
  | .unimplementedOpcode => 1
  | .fetchOutOfBounds => 2
  | .dataOutOfBounds => 3
  | .stackOverflow => 4
  | .stackUnderflow => 5
  | .keyIndexOutOfRange => 6
  | .fontDigitOutOfRange => 7

/-- TAKING A FAULT (R224), from the state as it was before the step (`s.pc = pc0`): only the latch changes. -/
def State.raise (c : Cause) (word : Word) (s : State) : State :=
  { s with cause := c.code, faultPc := s.pc, faultWord := word }

/-- The machine is halted (R43): a fault is latched. -/
def State.halted (s : State) : Bool := s.cause != 0

/-- RESET (R260), the only way out of a latched fault (R226): every field of the block goes to its reset value. What the
host has still to issue and its draws are no state of the block and stay. Log entry 3. -/
def State.resetCommand (s : State) : State :=
  { State.reset with rnd := s.rnd, draws := s.draws, pending := s.pending }

/-! ### Fetch and decode (60_exceptions.md R220, 20_memory.md R63 and R64) -/

/-- The word at `pc`, high byte first, or nothing when `pc >= 0xFFF` (R63). -/
def State.fetchWord (s : State) : Option Word :=
  if s.pc.toNat < 0xFFF then some (wordOfBytes (s.readMem s.pc.toNat) (s.readMem (s.pc.toNat + 1))) else none

/-- The instruction at `pc`, or the fault and the FAULT_WORD of the first check that fails (R223). -/
def State.nextInstr (s : State) : Except (Cause × Word) Instr :=
  match s.fetchWord with
  | none => .error (.fetchOutOfBounds, 0)
  | some w =>
    match decode w with
    | none => .error (.unimplementedOpcode, w)
    | some i => .ok i

/-- The STEP command's `rnd` argument, latched for Cxkk (R52). -/
def State.latchRnd (r : Byte) (s : State) : State := { s with rnd := r }

/-- One free draw is used up by a STEP that executes; a halted machine's STEP uses none (R225). Log entry 2. -/
def State.takeDraw (s : State) : State := if s.halted then s else { s with draws := s.draws + 1 }

end Sys2Proof.Machine
end

