-- ==== Sys2Proof/Machine/Commands.lean ====
section
/-! DEFINITION. The host's commands other than STEP (10_state.md R50; RESET is `State.resetCommand` in Machine/Ops.lean),
and the read-only views (R53 to R55). Each works in every state, halted included (60_exceptions.md R225). -/

namespace Sys2Proof.Machine

/-- One timer's tick: down by one, stopping at zero (R36, R200). -/
def tickTimer (t : Byte) : Byte := if t = 0 then 0 else t - 1

/-- `TICK` (R200). -/
def State.tick (s : State) : State := { s with dt := tickTimer s.dt, st := tickTimer s.st }

/-- `SET_KEY(k, p)` (R37, R50). -/
def State.setKey (k : Fin 16) (p : Bool) (s : State) : State := { s with key := s.key.set k.val p }

/-- `LOAD(b[0..L-1])` (R70): all or nothing. -/
def State.load (bytes : List Byte) (s : State) : State :=
  if 3584 < bytes.length then { s with loadError := true }
  else { s with mem := Memory.writeList 0x200 bytes s.mem, loadError := false }

/-- The `STATUS` word the host reads (R55): CAUSE, then halted, KEY_WAIT and LOAD_ERROR, then zeros. -/
def State.status (s : State) : Word :=
  BitVec.ofNat 16 (s.cause.toNat + s.halted.toNat * 0x10 + s.keyWait.toNat * 0x20 + s.loadError.toNat * 0x40)

/-- The framebuffer by linear index `x + 64*y` (R38, R54). -/
def State.pixel (s : State) (k : Fin 2048) : Bool := s.cell ⟨k.val % 64, by omega⟩ ⟨k.val / 64, by omega⟩

end Sys2Proof.Machine
end

