-- ==== Sys2Proof/Machine/Operands.lean ====
section
/-! DEFINITION. The operand forms of 30_encoding.md R93: the shifted register, memory through I, the register range V0..Vx,
the key that a register names and the first pressed key, the decimal digits, the font address, the sprite. -/

namespace Sys2Proof.Machine

/-- The value 8xy6 and 8xyE shift, for each value of SHIFT_SRC (R149, R151). -/
def State.shiftOperand (s : State) (p : ShiftSrc) (x y : Reg) : Byte :=
  match p with
  | .vx => s.readV x
  | .vy => s.readV y

/-- The effective address `I + k`, exact (R62, R176). -/
def State.ea (s : State) (k : Nat) : Nat := s.i.toNat + k

/-- Some byte of the `n` at I, I+1, … lies above 0xFFF (R62). No byte, no check (R212, `n = 0`). -/
def State.dataOutOfBounds (s : State) (n : Nat) : Bool := decide (0 < n) && decide (0xFFF < s.ea (n - 1))

/-- Memory with `V[0..n-1]` stored from I up (R174), in ascending order. -/
def State.storeRange (s : State) : Nat → Memory
  | 0 => s.mem
  | k + 1 => Memory.write (s.ea k) (s.v.getD k 0) (s.storeRange k)

/-- Registers with `V[0..n-1]` loaded from I up (R175), in ascending order. -/
def State.loadRange (s : State) : Nat → Vector Byte 16
  | 0 => s.v
  | k + 1 => (s.loadRange k).setIfInBounds k (s.readMem (s.ea k))

/-- `I` after Fx55 and Fx65 for each value of LDST_INC_I (R174, R175). -/
def State.rangeI (s : State) (inc : Bool) (x : Reg) : Word :=
  if inc then BitVec.ofNat 16 (s.ea (x.val + 1)) else s.i

/-- The hundreds, tens and ones of a byte (R173). -/
def digits (v : Byte) : List Byte :=
  [BitVec.ofNat 8 (v.toNat / 100), BitVec.ofNat 8 (v.toNat / 10 % 10), BitVec.ofNat 8 (v.toNat % 10)]

/-- The state of the key that `V[x]` names, or nothing when `V[x] > 0xF` (R190). -/
def State.keyOf (s : State) (x : Reg) : Option Bool :=
  if h : (s.readV x).toNat < 16 then some s.key[(s.readV x).toNat] else none

/-- The index of the first pressed key, counting from `k` (R194: lowest index first). -/
def scanKeys (k : Nat) : List Bool → Option Nat
  | [] => none
  | p :: ps => if p then some k else scanKeys (k + 1) ps

/-- The lowest pressed key (R194). -/
def State.firstKey (s : State) : Option Nat := scanKeys 0 s.key.toList

/-- The address of a digit's glyph, 5 bytes a glyph (R40, R172). -/
def fontAddress (d : Byte) : Word := BitVec.ofNat 16 (d.toNat * 5)

/-- `fb[x, y] <- not fb[x, y]` on one line, with the collision so far (R212). The column wraps at 64 (R211). -/
def flipCell (x : Nat) (d : Line × Bool) : Line × Bool :=
  have h : x % 64 < 64 := Nat.mod_lt _ (by decide)
  (d.1.set (x % 64) (!d.1[x % 64]) h, d.2 || d.1[x % 64])

/-- XOR the first `n` columns of a sprite row onto a line, leftmost (bit 7) first (R211, R212). -/
def drawRow (b : Byte) (x0 : Nat) : Nat → Line × Bool → Line × Bool
  | 0, d => d
  | c + 1, d => if b.getLsbD (7 - c) then flipCell (x0 + c) (drawRow b x0 c d) else drawRow b x0 c d

/-- XOR the first `n` rows of the sprite at I onto the framebuffer, with the collision so far (R212). The line wraps at 32
(R211). -/
def State.drawRows (s : State) (x0 y0 : Nat) : Nat → Framebuffer × Bool
  | 0 => (s.fb, false)
  | r + 1 =>
    have h : (y0 + r) % 32 < 32 := Nat.mod_lt _ (by decide)
    let d := s.drawRows x0 y0 r
    let line := drawRow (s.readMem (s.ea r)) x0 8 (d.1[(y0 + r) % 32], d.2)
    (d.1.set ((y0 + r) % 32) line.1 h, line.2)

end Sys2Proof.Machine
end

