-- ==== Sys2Proof/Machine/Flags.lean ====
section
/-! DEFINITION. Every flag computation (10_state.md R29, 41_alu.md R153). A flag is computed from operands sampled before any
write (R140), and VF is written after the destination (R23). -/

namespace Sys2Proof.Machine

/-- 1 for a set flag, 0 for a clear one. -/
def flagByte (f : Bool) : Byte := if f then 1 else 0

/-- 8xy4: carry, the exact sum exceeds 0xFF (R147). -/
def carryFlag (a b : Byte) : Bool := decide (0xFF < a.toNat + b.toNat)

/-- 8xy5 and 8xy7: no borrow in `a - b`, so equal operands set it (R148, R150). -/
def noBorrowFlag (a b : Byte) : Bool := decide (b.toNat ≤ a.toNat)

/-- 8xy6: the bit shifted out to the right, bit 0 (R149). -/
def shiftedOutRight (a : Byte) : Bool := a.getLsbD 0

/-- 8xyE: the bit shifted out to the left, bit 7 (R151). -/
def shiftedOutLeft (a : Byte) : Bool := a.getLsbD 7

/-- `VF <- flag` (R29). -/
def State.writeFlag (f : Bool) (s : State) : State := s.writeV Reg.vf (flagByte f)

end Sys2Proof.Machine
end

