-- ==== Sys2Proof/Machine/Alu.lean ====
section
/-! DEFINITION. The instructions of 41_alu.md: 8-bit results that wrap (R140). -/

namespace Sys2Proof.Machine

/-- Write the destination, then the flag (R140): with `x = 0xF` VF keeps the flag (R23). -/
def State.writeAlu (x : Reg) (result : Byte) (flag : Bool) (s : State) : State :=
  (s.advance.writeV x result).writeFlag flag

/-- 6xkk `LD Vx, kk` (R141). -/
def execLdImm (x : Reg) (kk : Byte) (s : State) : Result := .next (s.advance.writeV x kk)

/-- 7xkk `ADD Vx, kk` (R142): no flag. -/
def execAddImm (x : Reg) (kk : Byte) (s : State) : Result := .next (s.advance.writeV x (s.readV x + kk))

/-- 8xy0 `LD Vx, Vy` (R143). -/
def execLdReg (x y : Reg) (s : State) : Result := .next (s.advance.writeV x (s.readV y))

/-- 8xy1 `OR Vx, Vy` (R144): no flag. -/
def execOr (x y : Reg) (s : State) : Result := .next (s.advance.writeV x (s.readV x ||| s.readV y))

/-- 8xy2 `AND Vx, Vy` (R145): no flag. -/
def execAnd (x y : Reg) (s : State) : Result := .next (s.advance.writeV x (s.readV x &&& s.readV y))

/-- 8xy3 `XOR Vx, Vy` (R146): no flag. -/
def execXor (x y : Reg) (s : State) : Result := .next (s.advance.writeV x (s.readV x ^^^ s.readV y))

/-- 8xy4 `ADD Vx, Vy` (R147). -/
def execAddReg (x y : Reg) (s : State) : Result :=
  .next (s.writeAlu x (s.readV x + s.readV y) (carryFlag (s.readV x) (s.readV y)))

/-- 8xy5 `SUB Vx, Vy` (R148): Vx minus Vy. -/
def execSub (x y : Reg) (s : State) : Result :=
  .next (s.writeAlu x (s.readV x - s.readV y) (noBorrowFlag (s.readV x) (s.readV y)))

/-- 8xy6 for each value of SHIFT_SRC (R149). -/
def execShrWith (p : ShiftSrc) (x y : Reg) (s : State) : Result :=
  .next (s.writeAlu x (s.shiftOperand p x y >>> 1) (shiftedOutRight (s.shiftOperand p x y)))

/-- 8xy6 `SHR Vx, Vy` (R149). -/
def execShr (x y : Reg) (s : State) : Result := execShrWith shiftSrc x y s

/-- 8xy7 `SUBN Vx, Vy` (R150): Vy minus Vx. -/
def execSubn (x y : Reg) (s : State) : Result :=
  .next (s.writeAlu x (s.readV y - s.readV x) (noBorrowFlag (s.readV y) (s.readV x)))

/-- 8xyE for each value of SHIFT_SRC (R151). -/
def execShlWith (p : ShiftSrc) (x y : Reg) (s : State) : Result :=
  .next (s.writeAlu x (s.shiftOperand p x y <<< 1) (shiftedOutLeft (s.shiftOperand p x y)))

/-- 8xyE `SHL Vx, Vy` (R151). -/
def execShl (x y : Reg) (s : State) : Result := execShlWith shiftSrc x y s

/-- Cxkk `RND Vx, kk` (R152): the draw is the STEP's own argument (R52). -/
def execRnd (x : Reg) (kk : Byte) (s : State) : Result := .next (s.advance.writeV x (s.rnd &&& kk))

end Sys2Proof.Machine
end

