-- ==== Sys2Proof/Machine/ControlFlow.lean ====
section
/-! DEFINITION. The instructions of 40_control_flow.md. -/

namespace Sys2Proof.Machine

/-- 00EE `RET` (R122). -/
def execRet (s : State) : Result :=
  match s.advance.pop with
  | none => .next (s.raise .stackUnderflow (encode .ret))
  | some (a, t) => .next (t.jump a)

/-- 1nnn `JP nnn` (R123). -/
def execJp (nnn : Addr) (s : State) : Result := .next (s.advance.jump nnn.zext)

/-- 2nnn `CALL nnn` (R124): the return address is `pc0 + 2`, the advanced pc (R25). -/
def execCall (nnn : Addr) (s : State) : Result :=
  match s.advance.push s.advance.pc with
  | none => .next (s.raise .stackOverflow (encode (.call nnn)))
  | some t => .next (t.jump nnn.zext)

/-- 3xkk `SE Vx, kk` (R125). -/
def execSeImm (x : Reg) (kk : Byte) (s : State) : Result := .next (s.advance.skipIf (s.readV x == kk))

/-- 4xkk `SNE Vx, kk` (R126). -/
def execSneImm (x : Reg) (kk : Byte) (s : State) : Result := .next (s.advance.skipIf (s.readV x != kk))

/-- 5xy0 `SE Vx, Vy` (R127). -/
def execSeReg (x y : Reg) (s : State) : Result := .next (s.advance.skipIf (s.readV x == s.readV y))

/-- 9xy0 `SNE Vx, Vy` (R128). -/
def execSneReg (x y : Reg) (s : State) : Result := .next (s.advance.skipIf (s.readV x != s.readV y))

/-- Bnnn `JP V0, nnn` (R129): the sum is mod 2^16 and not masked to 12 bits. -/
def execJpV0 (nnn : Addr) (s : State) : Result := .next (s.advance.jump ((s.readV 0).zext + nnn.zext))

end Sys2Proof.Machine
end

