-- ==== Sys2Proof/Machine/Display.lean ====
section
/-! DEFINITION. The instructions of 44_display.md. -/

namespace Sys2Proof.Machine

/-- The framebuffer with every cell false (R210). -/
def clearFb : Framebuffer := Vector.replicate 32 (Vector.replicate 64 false)

/-- 00E0 `CLS` (R210). -/
def execCls (s : State) : Result := .next (s.advance.withFb clearFb)

/-- Dxyn `DRW Vx, Vy, n` (R212): the pixels, then VF. -/
def execDrw (x y : Reg) (n : Fin 16) (s : State) : Result :=
  if s.dataOutOfBounds n.val then .next (s.raise .dataOutOfBounds (encode (.drw x y n)))
  else
    let d := s.drawRows (s.readV x).toNat (s.readV y).toNat n.val
    .next ((s.advance.withFb d.1).writeFlag d.2)

end Sys2Proof.Machine
end

