-- ==== Sys2Proof/Machine/IndexMemory.lean ====
section
/-! DEFINITION. The instructions of 42_index_memory.md. Every bound is checked before any write (R62). -/

namespace Sys2Proof.Machine

/-- Annn `LD I, nnn` (R170). -/
def execLdI (nnn : Addr) (s : State) : Result := .next (s.advance.writeI nnn.zext)

/-- Fx1E `ADD I, Vx` (R171): mod 2^16, no flag. -/
def execAddI (x : Reg) (s : State) : Result := .next (s.advance.writeI (s.i + (s.readV x).zext))

/-- Fx29 for each value of FONT_OOR (R172). -/
def execLdFWith (p : FontOor) (x : Reg) (s : State) : Result :=
  if 0xF < (s.readV x).toNat ∧ p = .fault then .next (s.raise .fontDigitOutOfRange (encode (.ldF x)))
  else .next (s.advance.writeI (fontAddress (s.readV x)))

/-- Fx29 `LD F, Vx` (R172). -/
def execLdF (x : Reg) (s : State) : Result := execLdFWith fontOor x s

/-- Fx33 `LD B, Vx` (R173). -/
def execLdB (x : Reg) (s : State) : Result :=
  if s.dataOutOfBounds 3 then .next (s.raise .dataOutOfBounds (encode (.ldB x)))
  else .next (s.advance.withMem (Memory.writeList (s.ea 0) (digits (s.readV x)) s.mem))

/-- Fx55 for each value of LDST_INC_I (R174). -/
def execLdMemVxWith (inc : Bool) (x : Reg) (s : State) : Result :=
  if s.dataOutOfBounds (x.val + 1) then .next (s.raise .dataOutOfBounds (encode (.ldMemVx x)))
  else .next ((s.advance.withMem (s.storeRange (x.val + 1))).writeI (s.rangeI inc x))

/-- Fx55 `LD [I], Vx` (R174). -/
def execLdMemVx (x : Reg) (s : State) : Result := execLdMemVxWith ldstIncI x s

/-- Fx65 for each value of LDST_INC_I (R175). -/
def execLdVxMemWith (inc : Bool) (x : Reg) (s : State) : Result :=
  if s.dataOutOfBounds (x.val + 1) then .next (s.raise .dataOutOfBounds (encode (.ldVxMem x)))
  else .next ((s.advance.withV (s.loadRange (x.val + 1))).writeI (s.rangeI inc x))

/-- Fx65 `LD Vx, [I]` (R175). -/
def execLdVxMem (x : Reg) (s : State) : Result := execLdVxMemWith ldstIncI x s

end Sys2Proof.Machine
end

