-- ==== Sys2Proof/Machine/TimersKeys.lean ====
section
/-! DEFINITION. The instructions of 43_timers_keys.md. -/

namespace Sys2Proof.Machine

/-- Ex9E `SKP Vx` (R191). -/
def execSkp (x : Reg) (s : State) : Result :=
  match s.keyOf x with
  | none => .next (s.raise .keyIndexOutOfRange (encode (.skp x)))
  | some p => .next (s.advance.skipIf p)

/-- ExA1 `SKNP Vx` (R192). -/
def execSknp (x : Reg) (s : State) : Result :=
  match s.keyOf x with
  | none => .next (s.raise .keyIndexOutOfRange (encode (.sknp x)))
  | some p => .next (s.advance.skipIf (!p))

/-- Fx07 `LD Vx, DT` (R193). -/
def execLdVxDt (x : Reg) (s : State) : Result := .next (s.advance.writeV x s.dt)

/-- Fx0A `LD Vx, K` (R194): the lowest pressed key, or wait by staying at `pc0`. -/
def execLdVxK (x : Reg) (s : State) : Result :=
  match s.firstKey with
  | none => .next s.waitForKey
  | some k => .next (s.advance.writeV x (BitVec.ofNat 8 k))

/-- Fx15 `LD DT, Vx` (R195). -/
def execLdDtVx (x : Reg) (s : State) : Result := .next (s.advance.writeDt (s.readV x))

/-- Fx18 `LD ST, Vx` (R196). -/
def execLdStVx (x : Reg) (s : State) : Result := .next (s.advance.writeSt (s.readV x))

end Sys2Proof.Machine
end

