-- ==== Sys2Proof/Machine/Step.lean ====
section
/-! DEFINITION. One accepted command is one step (10_state.md R50, R51; 60_exceptions.md R220). Everything a test could show
wrong is in the files this one calls. -/

namespace Sys2Proof.Machine

/-- `STEP(rnd)` (R220): nothing while halted (R225), else latch `rnd`, fetch, decode and execute, or take the fault of the
first check that fails (R223). -/
def stepCommand (r : Byte) (s : State) : Result :=
  if s.halted then .next s
  else
    match (s.latchRnd r).nextInstr with
    | .error (c, w) => .next ((s.latchRnd r).raise c w)
    | .ok i => exec i (s.latchRnd r)

/-- The effect of one host command (R50). -/
def command (c : Command) (s : State) : Result :=
  match c with
  | .step r => stepCommand r s
  | .tick => .next s.tick
  | .setKey k p => .next (s.setKey k p)
  | .load bytes => .next (s.load bytes)
  | .reset => .next s.resetCommand

/-- One step of the model: the next command the host has issued, or STEP with a free draw when none is pending.
Log entries 1 and 2. -/
def step (s : State) : Host.Outcome State Fault Refusal :=
  match s.pending with
  | [] => stepCommand (Config.freeDraw s.draws) s.takeDraw
  | c :: rest => command c { s with pending := rest }

/-- The state with the instruction of bits `w` where `step` fetches next: the word stands at `pc` big-endian (R64). The fetch
also needs a machine that is not halted (R225), no other command before it (R51), and a `pc` that can be fetched from (R63);
what already is so is not changed. Log entry 10. -/
def State.withFetchWord (s : State) (nbits w : Nat) : State :=
  let word : Word := BitVec.ofNat 16 (w % 2 ^ nbits)
  let pc : Word := if s.pc.toNat < 0xFFF then s.pc else 0x200
  { s with
    pc := pc
    cause := 0
    pending := []
    mem := Memory.writeList pc.toNat [hiByte word, loByte word] s.mem }

end Sys2Proof.Machine
end

