-- ==== Sys2Proof/Safety.lean ====
section
/-! DEFINITION. The terms claims use: what a state of a good run satisfies, when a run ends (70_reset_and_hazards.md R270),
which fault an instruction can raise (60_exceptions.md R222), and what an instruction leaves unchanged. -/

namespace Sys2Proof.Machine

/-- The word at `pc` is a `JP` to its own address, with `pc <= 0xFFE` (R270 b). -/
def State.atHaltLoop (s : State) : Bool := s.fetchWord == some (0x1000 + s.pc)

/-- A final state (R270): a fault is latched, or the halt loop is reached. -/
def State.final (s : State) : Bool := s.halted || s.atHaltLoop

/-- The next step is a STEP: the host has issued one, or has issued nothing (log entry 1). -/
def State.nextIsStep (s : State) : Bool :=
  match s.pending with
  | [] | .step _ :: _ => true
  | .tick :: _ | .setKey _ _ :: _ | .load _ :: _ | .reset :: _ => false

/-- A STEP BOUNDARY of the run from `s` (R270): after `k` steps the run is at `t`, and there a STEP begins or one has just
ended. Between RESET and LOAD there is none. Log entry 23. -/
def StepBoundary (k : Nat) (s t : State) : Prop :=
  Sys2Proof.core.run k s = .next t ∧
    (t.nextIsStep = true ∨ ∃ j u, k = j + 1 ∧ Sys2Proof.core.run j s = .next u ∧ u.nextIsStep = true)

/-- THE END OF A RUN (R270): `t`, after `k` steps, is final, and it is the FIRST STEP boundary of the run from `s` that is. -/
def EndsAt (k : Nat) (s t : State) : Prop :=
  StepBoundary k s t ∧ t.final = true ∧ ∀ j u, j < k → StepBoundary j s u → u.final = false

/-- A run that ends at the halt loop with no fault latched: the one whose end `t` a result claim reads (R270). -/
def SafeRun (k : Nat) (s t : State) : Prop :=
  EndsAt k s t ∧ t.halted = false ∧ t.atHaltLoop = true

/-- The one fault each instruction can raise after decode, if any (R222). -/
def ownFault : Instr → Option Cause
  | .ret => some .stackUnderflow
  | .call _ => some .stackOverflow
  | .drw _ _ _ | .ldB _ | .ldMemVx _ | .ldVxMem _ => some .dataOutOfBounds
  | .skp _ | .sknp _ => some .keyIndexOutOfRange
  | .ldF _ => some .fontDigitOutOfRange
  | .cls | .jp _ | .seImm _ _ | .sneImm _ _ | .seReg _ _ | .ldImm _ _ | .addImm _ _ | .ldReg _ _ | .orReg _ _
  | .andReg _ _ | .xorReg _ _ | .addReg _ _ | .sub _ _ | .shr _ _ | .subn _ _ | .shl _ _ | .sneReg _ _ | .ldI _
  | .jpV0 _ | .rnd _ _ | .ldVxDt _ | .ldVxK _ | .ldDtVx _ | .ldStVx _ | .addI _ => none

/-- The latched FAULT_WORD is one that CAUSE can come from: no word for a fetch fault, an illegal word for code 1, else a
word of an instruction that raises that cause (R221, R222). -/
def LatchExplained (s : State) : Prop :=
  (s.cause = Cause.fetchOutOfBounds.code ∧ 0xFFF ≤ s.pc.toNat ∧ s.faultWord = 0) ∨
  (s.cause = Cause.unimplementedOpcode.code ∧ s.pc.toNat < 0xFFF ∧ decode s.faultWord = none) ∨
  (∃ i c, s.pc.toNat < 0xFFF ∧ decode s.faultWord = some i ∧ ownFault i = some c ∧ s.cause = c.code)

/-- What holds of the block in every state that commands can reach. -/
structure Inv (s : State) : Prop where
  /-- The memory is in its canonical form: only addresses below 4096, each once, in order (R60). -/
  memory : s.mem.wf = true
  /-- The pc never exceeds 0x10FE, so its 16-bit wrap cannot be reached (R27). -/
  pcBound : s.pc.toNat ≤ 0x10FE
  /-- Every return address is at most 0x1000 (R122). -/
  stackBound : ∀ j : Fin 16, s.stack[j.val].toNat ≤ 0x1000
  /-- With no fault latched the latch is clear (R43, R221). -/
  latchClear : s.cause = 0 → s.faultPc = 0 ∧ s.faultWord = 0
  /-- A latched fault names the pc, which the halted machine keeps, and a word that explains it (R221, R224, R225). -/
  latchSet : s.cause ≠ 0 → s.faultPc = s.pc ∧ LatchExplained s
  /-- A machine that waits for a key has its pc at a fetchable address, that of the Fx0A (R46). -/
  waiting : s.keyWait = true → s.pc.toNat < 0xFFF

/-- SPRITE GEOMETRY (R211): a set bit of the `n`-row sprite at I, drawn at (x0, y0), lands on the cell (X, Y). Column `c` of
a row is bit `7 - c`, and each axis wraps on its own. -/
abbrev SpriteCovers (s : State) (x0 y0 n X Y : Nat) : Prop :=
  ∃ r, r < n ∧ ∃ c, c < 8 ∧
    (s.readMem (s.i.toNat + r)).getLsbD (7 - c) = true ∧ (x0 + c) % 64 = X ∧ (y0 + r) % 32 = Y

/-- The parts of the state that an instruction is allowed to change, besides `pc` and KEY_WAIT. -/
structure Changes where
  v     : Reg → Bool := fun _ => false
  i     : Bool := false
  stack : Bool := false
  dt    : Bool := false
  st    : Bool := false
  fb    : Bool := false
  mem   : Nat → Bool := fun _ => false

/-- THE FRAME: `t` agrees with `s` on everything but `pc`, KEY_WAIT and the parts that `c` lets change. The keys, the fault
latch and LOAD_ERROR are in no instruction's reach (R37, R43, R45), nor is the host's side. -/
structure Frame (c : Changes) (s t : State) : Prop where
  v : ∀ r, c.v r = false → t.readV r = s.readV r
  i : c.i = false → t.i = s.i
  stack : c.stack = false → t.sp = s.sp ∧ ∀ j : Fin 16, t.stack[j.val] = s.stack[j.val]
  dt : c.dt = false → t.dt = s.dt
  st : c.st = false → t.st = s.st
  fb : c.fb = false → ∀ x y, t.cell x y = s.cell x y
  mem : ∀ a, c.mem a = false → t.readMem a = s.readMem a
  key : ∀ k : Fin 16, t.key[k.val] = s.key[k.val]
  latch : t.cause = s.cause ∧ t.faultPc = s.faultPc ∧ t.faultWord = s.faultWord
  loadError : t.loadError = s.loadError
  host : t.rnd = s.rnd ∧ t.draws = s.draws ∧ t.pending = s.pending

/-- The instruction takes the fault `c`, precisely (R224): only the latch changes, FAULT_PC is `pc0` and FAULT_WORD is the
instruction's word. -/
def TakesFault (i : Instr) (s : State) (c : Cause) : Prop :=
  exec i s = .next { s with cause := c.code, faultPc := s.pc, faultWord := encode i }

/-- The outcome `o` of an instruction at `s` is a next state: it completes with `V[x] = b` and changes no other register. -/
def WritesReg (o : Result) (s : State) (x : Reg) (b : Byte) : Prop :=
  ∃ t, o = .next t ∧ t.readV x = b ∧ t.pc = s.pc + 2 ∧ t.keyWait = false ∧
    Frame { v := fun r => r == x } s t

/-- The outcome `o` at `s` is a next state, with the destination written first and VF second (R140): VF holds the flag, and `V[x] = b` unless
`x` is VF itself. -/
def WritesRegAndFlag (o : Result) (s : State) (x : Reg) (b : Byte) (flag : Bool) : Prop :=
  ∃ t, o = .next t ∧ (x ≠ Reg.vf → t.readV x = b) ∧ t.readV Reg.vf = (if flag then 1 else 0) ∧
    t.pc = s.pc + 2 ∧ t.keyWait = false ∧ Frame { v := fun r => r == x || r == Reg.vf } s t

/-- The outcome `o` at `s` is a next state: it completes with `pc = a` and changes nothing else. -/
def MovesPc (o : Result) (s : State) (a : Word) : Prop :=
  ∃ t, o = .next t ∧ t.pc = a ∧ t.keyWait = false ∧ Frame { } s t

/-- The outcome `o` at `s` is a next state: it completes with `I = w` and changes nothing else. -/
def WritesI (o : Result) (s : State) (w : Word) : Prop :=
  ∃ t, o = .next t ∧ t.i = w ∧ t.pc = s.pc + 2 ∧ t.keyWait = false ∧ Frame { i := true } s t

/-- Where each instruction leaves the pc when it does not fault: the table of R26. -/
def finalPc (i : Instr) (s : State) : Word :=
  match i with
  | .seImm x kk => if s.readV x = kk then s.pc + 4 else s.pc + 2
  | .sneImm x kk => if s.readV x ≠ kk then s.pc + 4 else s.pc + 2
  | .seReg x y => if s.readV x = s.readV y then s.pc + 4 else s.pc + 2
  | .sneReg x y => if s.readV x ≠ s.readV y then s.pc + 4 else s.pc + 2
  | .skp x => if s.key.getD (s.readV x).toNat false = true then s.pc + 4 else s.pc + 2
  | .sknp x => if s.key.getD (s.readV x).toNat false = false then s.pc + 4 else s.pc + 2
  | .jp nnn | .call nnn => nnn.zext
  | .ret => s.stack.getD (s.sp.val - 1) 0
  | .jpV0 nnn => (s.readV 0).zext + nnn.zext
  | .ldVxK _ => if ∀ k : Fin 16, s.key[k.val] = false then s.pc else s.pc + 2
  | .cls | .ldImm _ _ | .addImm _ _ | .ldReg _ _ | .orReg _ _ | .andReg _ _ | .xorReg _ _ | .addReg _ _ | .sub _ _
  | .shr _ _ | .subn _ _ | .shl _ _ | .ldI _ | .rnd _ _ | .drw _ _ _ | .ldVxDt _ | .ldDtVx _ | .ldStVx _ | .addI _
  | .ldF _ | .ldB _ | .ldMemVx _ | .ldVxMem _ => s.pc + 2

/-- `t` is `s` with other values in the stack entries that are not in use (R31). -/
def DeadStackEq (s t : State) : Prop :=
  ∃ k : Vector Word 16, t = { s with stack := k } ∧ ∀ j : Fin 16, j.val < s.sp.val → k[j.val] = s.stack[j.val]

end Sys2Proof.Machine
end

