-- ==== Sys2Proof/Certificates/Slice0/Obligations.lean ====
section
/-! DEFINITION. The statements for the provers. Each docstring names the rules of spec/ it rests on. The predicates they are
written with (`Frame`, `TakesFault`, `WritesReg`, …) stand in Sys2Proof/Safety.lean. -/

open Sys2Proof Sys2Proof.Machine

/-! ### Encoding (30_encoding.md) -/

/-- Words written out from the patterns of R95 decode to the instructions they stand for, and words of each illegal class of
R96 are refused. -/
def Obligations.SpecWordsDecode : Prop :=
  decode 0x00E0 = some .cls ∧ decode 0x00EE = some .ret ∧ decode 0x2210 = some (.call 0x210) ∧
  decode 0x5120 = some (.seReg 1 2) ∧ decode 0x812E = some (.shl 1 2) ∧ decode 0x9AB0 = some (.sneReg 0xA 0xB) ∧
  decode 0xA300 = some (.ldI 0x300) ∧ decode 0xD125 = some (.drw 1 2 5) ∧ decode 0xE19E = some (.skp 1) ∧
  decode 0xF165 = some (.ldVxMem 1) ∧
  decode 0x0000 = none ∧ decode 0x0123 = none ∧ decode 0x5121 = none ∧ decode 0x8128 = none ∧ decode 0x9AB1 = none ∧
  decode 0xE19F = none ∧ decode 0xF166 = none

/-- Decoding the word or the bytes of any instruction gives it back, with every operand (R91, R95), and takes two bytes
(R90). -/
def Obligations.DecodeOfEncode : Prop :=
  ∀ i : Instr, decode (encode i) = some i ∧ ∀ rest, decodeBytes (encodeBytes i ++ rest) = .ok (i, rest)

/-- Each word has one meaning: an instruction read from a word has that word and no other (R94, R95). -/
def Obligations.EncodeOfDecode : Prop := ∀ (w : Word) (i : Instr), decode w = some i → encode i = w

/-- The decoder reads the opcode table of R95: no word selects two rows, a word that selects a row decodes to that row's
instruction, and the words that select none are exactly the ones refused (R94, R96). -/
def Obligations.DecodeFollowsOpcodeTable : Prop :=
  ∀ w : Word,
    (∀ r ∈ rows, ∀ r' ∈ rows, r.selects w = true → r'.selects w = true → r = r') ∧
    (∀ r ∈ rows, r.selects w = true → ∃ i, decode w = some i ∧ i.mnemonic = r.mnemonic) ∧
    (decode w = none ↔ wellFormedWord w = false)

/-- The illegal space is exactly the six classes of R96, with `op`, `n` and `kk` taken from the word by shift and mask. -/
def Obligations.IllegalSpaceIsSixClasses : Prop :=
  ∀ w : Word, decode w = none ↔
    (w >>> 12 = 0x0 ∧ w ≠ 0x00E0 ∧ w ≠ 0x00EE) ∨
    (w >>> 12 = 0x5 ∧ w &&& 0xF ≠ 0) ∨
    (w >>> 12 = 0x8 ∧ w &&& 0xF ∈ ([0x8, 0x9, 0xA, 0xB, 0xC, 0xD, 0xF] : List Word)) ∨
    (w >>> 12 = 0x9 ∧ w &&& 0xF ≠ 0) ∨
    (w >>> 12 = 0xE ∧ w &&& 0xFF ∉ ([0x9E, 0xA1] : List Word)) ∨
    (w >>> 12 = 0xF ∧ w &&& 0xFF ∉ ([0x07, 0x0A, 0x15, 0x18, 0x1E, 0x29, 0x33, 0x55, 0x65] : List Word))

/-! ### The step (60_exceptions.md, 20_memory.md) -/

/-- A step runs the decoded instruction (R220, R64): when the machine is not halted and the two bytes at `pc` decode to `i`,
STEP(rnd) is the meaning of `i` at that state with `rnd` latched. The model's step does so too, with a free draw, when the
host has no other command pending (log entries 1 and 2); the meaning itself moves `pc` past the word (log entry 3). -/
def Obligations.StepRunsDecodedInstruction : Prop :=
  ∀ (s : State) (i : Instr), s.cause = 0 → s.pc.toNat < 0xFFF →
    decode (wordOfBytes (s.readMem s.pc.toNat) (s.readMem (s.pc.toNat + 1))) = some i →
    (∀ r, command (.step r) s = exec i { s with rnd := r }) ∧
    (s.pending = [] → step s = exec i { s with rnd := Config.freeDraw s.draws, draws := s.draws + 1 })

/-- Commands are accepted one at a time and in order (R50, R51): the model's step is the first pending command, and the rest
stay pending (log entry 1). -/
def Obligations.StepAcceptsPendingCommand : Prop :=
  ∀ (s : State) (c : Command) (rest : List Command), s.pending = c :: rest →
    step s = command c { s with pending := rest } ∧
    ∀ t, step s = .next t → t.pending = rest

/-- The fetch bound (R63): at `pc0 >= 0xFFF` the step latches FetchOutOfBounds with FAULT_WORD 0, whatever memory holds; at
`pc0 = 0xFFE` the fetch is legal, gives `M[0xFFE] ++ M[0xFFF]`, and the advanced pc is 0x1000. -/
def Obligations.FetchBoundFault : Prop :=
  (∀ (s : State) (r : Byte), s.cause = 0 → 0xFFF ≤ s.pc.toNat →
    command (.step r) s = .next { s with rnd := r, cause := 2, faultPc := s.pc, faultWord := 0 }) ∧
  (∀ s : State, s.pc = 0xFFE →
    s.fetchWord = some (wordOfBytes (s.readMem 0xFFE) (s.readMem 0xFFF)) ∧ s.advance.pc = 0x1000)

/-- An illegal word latches UnimplementedOpcode with the word and `pc0` and changes nothing else (R96, R224); zeroed memory
is such a word (R97). -/
def Obligations.IllegalWordFault : Prop :=
  ∀ (s : State) (r : Byte), s.cause = 0 → s.pc.toNat < 0xFFF →
    (∀ w, w = wordOfBytes (s.readMem s.pc.toNat) (s.readMem (s.pc.toNat + 1)) → decode w = none →
      command (.step r) s = .next { s with rnd := r, cause := 1, faultPc := s.pc, faultWord := w }) ∧
    (s.readMem s.pc.toNat = 0 → s.readMem (s.pc.toNat + 1) = 0 →
      command (.step r) s = .next { s with rnd := r, cause := 1, faultPc := s.pc, faultWord := 0 })

/-- While halted (R225): STEP changes nothing, TICK still counts both timers down, SET_KEY still sets keys, LOAD still loads
without clearing the fault, and RESET clears the fault with everything else. -/
def Obligations.HaltedCommands : Prop :=
  ∀ s : State, s.cause ≠ 0 →
    (∀ r, command (.step r) s = .next s) ∧
    (∃ t, command .tick s = .next t ∧ t.dt.toNat = s.dt.toNat - 1 ∧ t.st.toNat = s.st.toNat - 1 ∧ t.cause = s.cause) ∧
    (∀ k p, ∃ t, command (.setKey k p) s = .next t ∧ t.key[k.val] = p ∧ t.cause = s.cause) ∧
    (∀ bytes : List Byte, bytes.length ≤ 3584 → ∃ t, command (.load bytes) s = .next t ∧
      (∀ j (h : j < bytes.length), t.readMem (0x200 + j) = bytes[j]) ∧
      t.cause = s.cause ∧ t.faultPc = s.faultPc ∧ t.faultWord = s.faultWord) ∧
    (∃ t, command .reset s = .next t ∧ t.cause = 0 ∧
      t = { State.reset with rnd := s.rnd, draws := s.draws, pending := s.pending })

/-- A fault is precise (R224): when a STEP latches a fault, the state is as before the step but for CAUSE, FAULT_PC (which is
`pc0`) and FAULT_WORD (the fetched word, or 0 when none was fetched). `rnd` is the STEP's own argument. -/
def Obligations.FaultIsPrecise : Prop :=
  ∀ (s t : State) (r : Byte), s.cause = 0 → command (.step r) s = .next t → t.cause ≠ 0 →
    t = { s with rnd := r, cause := t.cause, faultPc := s.pc, faultWord := t.faultWord } ∧
    (s.fetchWord = some t.faultWord ∨ (s.fetchWord = none ∧ t.cause = 2 ∧ t.faultWord = 0))

/-- After decode an instruction can take only its own fault, if it has one, and takes it whole; otherwise it leaves the
latch alone (R221, R222). -/
def Obligations.InstructionsTakeOnlyTheirOwnFault : Prop :=
  ∀ (i : Instr) (s : State),
    (∃ c, ownFault i = some c ∧ TakesFault i s c) ∨
    (∃ t, exec i s = .next t ∧ t.cause = s.cause ∧ t.faultPc = s.faultPc ∧ t.faultWord = s.faultWord)

/-- The machine never stops by itself (R270, R49): every step of every state answers a next state. -/
def Obligations.EveryStepAnswersNext : Prop := ∀ s : State, ∃ t, step s = .next t

/-- Where the pc is after a step (R26): the table's value when the instruction does not fault, `pc0` when it does. -/
def Obligations.FinalPcFollowsTable : Prop :=
  ∀ (i : Instr) (s t : State), s.cause = 0 → exec i s = .next t →
    (t.cause = 0 → t.pc = finalPc i s) ∧ (t.cause ≠ 0 → t.pc = s.pc)

/-- KEY_WAIT (R44): a STEP that does not fault leaves it 1 exactly when it executed Fx0A with no key pressed, and one that
faults leaves it unchanged; TICK, SET_KEY and LOAD leave it unchanged; reset clears it. -/
def Obligations.KeyWaitReportsTheWait : Prop :=
  (∀ (s t : State) (r : Byte), s.cause = 0 → command (.step r) s = .next t →
    (t.cause = 0 → (t.keyWait = true ↔
      ∃ w x, s.fetchWord = some w ∧ decode w = some (.ldVxK x) ∧ ∀ k : Fin 16, s.key[k.val] = false)) ∧
    (t.cause ≠ 0 → t.keyWait = s.keyWait)) ∧
  (∀ s t : State, command .tick s = .next t → t.keyWait = s.keyWait) ∧
  (∀ (s t : State) k p, command (.setKey k p) s = .next t → t.keyWait = s.keyWait) ∧
  (∀ (s t : State) bytes, command (.load bytes) s = .next t → t.keyWait = s.keyWait) ∧
  State.reset.keyWait = false

/-- LOAD_ERROR (R45): LOAD sets it exactly when it rejects the bytes as oversized, RESET clears it, and no other command
writes it. -/
def Obligations.LoadErrorIsWrittenByLoadAndReset : Prop :=
  (∀ (s : State) (bytes : List Byte), ∃ t, command (.load bytes) s = .next t ∧
    (t.loadError = true ↔ 3584 < bytes.length)) ∧
  (∀ s : State, ∃ t, command .reset s = .next t ∧ t.loadError = false) ∧
  (∀ (s : State) (c : Command), (∀ bytes, c ≠ .load bytes) → c ≠ .reset →
    ∃ t, command c s = .next t ∧ t.loadError = s.loadError) ∧
  State.reset.loadError = false

/-! ### Whole-machine rules (10_state.md) -/

/-- No instruction writes a key, and SET_KEY writes the one it names (R37). -/
def Obligations.OnlySetKeyWritesKeys : Prop :=
  (∀ (s : State) (r : Byte), ∃ t, command (.step r) s = .next t ∧ t.key = s.key) ∧
  (∀ (s : State) (k : Fin 16) (p : Bool), ∃ t, command (.setKey k p) s = .next t ∧ t.key[k.val] = p ∧
    (∀ j : Fin 16, j ≠ k → t.key[j.val] = s.key[j.val]) ∧ t = { s with key := t.key })

/-- Only Ex9E, ExA1 and Fx0A read the keys (R37): with any other instruction, other keys give the same next state but for
those keys. -/
def Obligations.OnlyKeyInstructionsReadKeys : Prop :=
  ∀ (i : Instr) (s t : State) (key : Vector Bool 16),
    (∀ x, i ≠ .skp x) → (∀ x, i ≠ .sknp x) → (∀ x, i ≠ .ldVxK x) →
    exec i s = .next t → exec i { s with key := key } = .next { t with key := key }

/-- No instruction reads ST (R35): another value of ST gives the same next state but for ST, which Fx18 writes and every
other instruction keeps. -/
def Obligations.NoInstructionReadsSoundTimer : Prop :=
  ∀ (i : Instr) (s t : State) (b : Byte), exec i s = .next t →
    (∀ x, i = .ldStVx x → exec i { s with st := b } = .next t) ∧
    ((∀ x, i ≠ .ldStVx x) → t.st = s.st ∧ exec i { s with st := b } = .next { t with st := b })

/-- Only a Cxkk reads the STEP's random byte (R52). -/
def Obligations.OnlyRndReadsTheDraw : Prop :=
  ∀ (i : Instr) (s t : State) (r : Byte), (∀ x kk, i ≠ .rnd x kk) →
    exec i s = .next t → exec i { s with rnd := r } = .next { t with rnd := r }

/-- The framebuffer changes only through 00E0, Dxyn and RESET (R213): 00E0 and RESET clear it whole, Dxyn flips exactly the
cells under the set bits of its rows, and no other instruction or command changes a cell. Where a set bit lies (R211) rests
on the bit order, the spec's own decision (D18, log entry 12). -/
def Obligations.FramebufferWriters : Prop :=
  (∀ (i : Instr) (s t : State), i ≠ .cls → (∀ x y n, i ≠ .drw x y n) → exec i s = .next t →
    ∀ X Y, t.cell X Y = s.cell X Y) ∧
  (∀ (c : Command) (s t : State), (∀ r, c ≠ .step r) → c ≠ .reset → command c s = .next t →
    ∀ X Y, t.cell X Y = s.cell X Y) ∧
  (∀ s : State, ∃ t, exec .cls s = .next t ∧ ∀ X Y, t.cell X Y = false) ∧
  (∀ s : State, ∃ t, command .reset s = .next t ∧ ∀ X Y, t.cell X Y = false) ∧
  (∀ (s t : State) x y n, s.cause = 0 → exec (.drw x y n) s = .next t → t.cause = 0 → ∀ X Y,
    (SpriteCovers s (s.readV x).toNat (s.readV y).toNat n.val X.val Y.val → t.cell X Y = !s.cell X Y) ∧
    (¬ SpriteCovers s (s.readV x).toNat (s.readV y).toNat n.val X.val Y.val → t.cell X Y = s.cell X Y))

/-- No instruction but Fx33 and Fx55 changes a byte of memory (R65), and the two change none below I (R62, R173, R174). -/
def Obligations.OnlyStoresWriteMemory : Prop :=
  ∀ (i : Instr) (s t : State), exec i s = .next t →
    ((∀ x, i ≠ .ldB x) → (∀ x, i ≠ .ldMemVx x) → ∀ a, t.readMem a = s.readMem a) ∧
    (∀ a, a < s.i.toNat → t.readMem a = s.readMem a)

/-- The stack is reached only by 2nnn and 00EE (R33), and the stack pointer moves by one (R32). -/
def Obligations.OnlyCallAndRetReachTheStack : Prop :=
  ∀ (i : Instr) (s t : State), exec i s = .next t →
    ((∀ nnn, i ≠ .call nnn) → t.stack = s.stack) ∧
    ((∀ nnn, i ≠ .call nnn) → i ≠ .ret → t.sp = s.sp) ∧
    (t.sp.val ≤ s.sp.val + 1 ∧ s.sp.val ≤ t.sp.val + 1)

/-- A stack entry at or above SP cannot be observed (R31): two states that differ only in such entries stay so under every
instruction. -/
def Obligations.EntriesAboveSpAreUnobservable : Prop :=
  ∀ (i : Instr) (s s' t : State), DeadStackEq s s' → exec i s = .next t →
    ∃ t', exec i s' = .next t' ∧ DeadStackEq t t'

/-! ### Control flow (40_control_flow.md) -/

/-- 1nnn and Bnnn (R123, R129): the target, unmasked, and nothing else. -/
def Obligations.JumpsSetThePc : Prop :=
  ∀ (s : State) (nnn : Addr),
    MovesPc (exec (.jp nnn) s) s (nnn.setWidth 16) ∧
    MovesPc (exec (.jpV0 nnn) s) s (BitVec.ofNat 16 ((s.readV 0).toNat + nnn.toNat))

/-- The four register skips (R121, R125 to R128): `pc0 + 4` when the condition holds, else `pc0 + 2`, and nothing else. -/
def Obligations.RegisterSkips : Prop :=
  ∀ (s : State) (x y : Reg) (kk : Byte),
    MovesPc (exec (.seImm x kk) s) s (if s.readV x = kk then s.pc + 4 else s.pc + 2) ∧
    MovesPc (exec (.sneImm x kk) s) s (if s.readV x = kk then s.pc + 2 else s.pc + 4) ∧
    MovesPc (exec (.seReg x y) s) s (if s.readV x = s.readV y then s.pc + 4 else s.pc + 2) ∧
    MovesPc (exec (.sneReg x y) s) s (if s.readV x = s.readV y then s.pc + 2 else s.pc + 4)

/-- 2nnn (R124): with a free entry it pushes `pc0 + 2` and jumps; with 16 in use it takes StackOverflow. -/
def Obligations.CallPushesAndJumps : Prop :=
  ∀ (s : State) (nnn : Addr),
    (∀ h : s.sp.val < 16, ∃ t, exec (.call nnn) s = .next t ∧ t.pc = nnn.setWidth 16 ∧ t.sp.val = s.sp.val + 1 ∧
      t.stack[s.sp.val] = s.pc + 2 ∧ (∀ j : Fin 16, j.val ≠ s.sp.val → t.stack[j.val] = s.stack[j.val]) ∧
      t.keyWait = false ∧ Frame { stack := true } s t) ∧
    (s.sp.val = 16 → TakesFault (.call nnn) s .stackOverflow)

/-- 00EE (R122): with an entry in use it pops it into `pc` and the entry keeps its value; with none it takes
StackUnderflow. -/
def Obligations.RetPopsThePc : Prop :=
  ∀ s : State,
    (∀ h : 0 < s.sp.val, ∃ t, exec .ret s = .next t ∧ t.pc = s.stack[s.sp.val - 1] ∧ t.sp.val = s.sp.val - 1 ∧
      (∀ j : Fin 16, t.stack[j.val] = s.stack[j.val]) ∧ t.keyWait = false ∧ Frame { stack := true } s t) ∧
    (s.sp.val = 0 → TakesFault .ret s .stackUnderflow)

/-- A CALL and then a RET resume after the CALL with the stack in use as it was (R32, R122, R124). -/
def Obligations.CallThenRetResumes : Prop :=
  ∀ (s : State) (nnn : Addr), s.sp.val < 16 →
    ∃ t u, exec (.call nnn) s = .next t ∧ exec .ret t = .next u ∧ u.pc = s.pc + 2 ∧ u.sp = s.sp ∧
      (∀ j : Fin 16, j.val < s.sp.val → u.stack[j.val] = s.stack[j.val]) ∧ Frame { stack := true } s u

/-! ### ALU (41_alu.md) -/

/-- The loads, the immediate add and the logical operations write `V[x]` and no flag (R141 to R146). -/
def Obligations.RegisterResultsWithoutFlag : Prop :=
  ∀ (s : State) (x y : Reg) (kk : Byte),
    WritesReg (exec (.ldImm x kk) s) s x kk ∧
    WritesReg (exec (.addImm x kk) s) s x (BitVec.ofNat 8 ((s.readV x).toNat + kk.toNat)) ∧
    WritesReg (exec (.ldReg x y) s) s x (s.readV y) ∧
    WritesReg (exec (.orReg x y) s) s x (s.readV x ||| s.readV y) ∧
    WritesReg (exec (.andReg x y) s) s x (s.readV x &&& s.readV y) ∧
    WritesReg (exec (.xorReg x y) s) s x (s.readV x ^^^ s.readV y)

/-- 8xy4, 8xy5 and 8xy7 (R147, R148, R150): the result mod 2^8 and then VF, the carry or the absence of a borrow, all from
operands sampled before any write. Equal operands and SUBN's flag are the spec's own decision (D11, log entry 15). -/
def Obligations.AddAndSubtractWithFlag : Prop :=
  ∀ (s : State) (x y : Reg),
    WritesRegAndFlag (exec (.addReg x y) s) s x (BitVec.ofNat 8 ((s.readV x).toNat + (s.readV y).toNat))
      (decide (0xFF < (s.readV x).toNat + (s.readV y).toNat)) ∧
    WritesRegAndFlag (exec (.sub x y) s) s x (BitVec.ofInt 8 ((s.readV x).toNat - (s.readV y).toNat : Int))
      (decide ((s.readV y).toNat ≤ (s.readV x).toNat)) ∧
    WritesRegAndFlag (exec (.subn x y) s) s x (BitVec.ofInt 8 ((s.readV y).toNat - (s.readV x).toNat : Int))
      (decide ((s.readV x).toNat ≤ (s.readV y).toNat))

/-- 8xy6 and 8xyE (R149, R151) shift by one the register SHIFT_SRC names, with VF the bit shifted out. The value `Vx`,
which ignores `y`, is the spec's own decision (D10, log entry 6); the meanings under the other value shift `Vy` in the same way. -/
def Obligations.ShiftsWithFlag : Prop :=
  ∀ (s : State) (x y : Reg),
    WritesRegAndFlag (exec (.shr x y) s) s x (BitVec.ofNat 8 ((s.readV x).toNat / 2)) (decide ((s.readV x).toNat % 2 = 1)) ∧
    WritesRegAndFlag (exec (.shl x y) s) s x (BitVec.ofNat 8 ((s.readV x).toNat * 2)) (decide (0x80 ≤ (s.readV x).toNat)) ∧
    WritesRegAndFlag (execShrWith .vy x y s) s x (BitVec.ofNat 8 ((s.readV y).toNat / 2))
      (decide ((s.readV y).toNat % 2 = 1)) ∧
    WritesRegAndFlag (execShlWith .vy x y s) s x (BitVec.ofNat 8 ((s.readV y).toNat * 2))
      (decide (0x80 ≤ (s.readV y).toNat))

/-- Cxkk (R152, R52): `V[x]` is the STEP's random byte AND `kk`, for every draw; the whole step says so too. -/
def Obligations.RandomAndOfEveryDraw : Prop :=
  (∀ (s : State) (x : Reg) (kk : Byte), WritesReg (exec (.rnd x kk) s) s x (s.rnd &&& kk)) ∧
  (∀ (s : State) (x : Reg) (kk r : Byte), s.cause = 0 → s.fetchWord = some (encode (.rnd x kk)) →
    ∃ t, command (.step r) s = .next t ∧ t.readV x = r &&& kk ∧ t.cause = 0)

/-! ### Address register and memory (42_index_memory.md) -/

/-- Annn and Fx1E write I and nothing else: the address, or the sum mod 2^16 (R170, R171). -/
def Obligations.AddressRegisterWrites : Prop :=
  ∀ (s : State) (nnn : Addr) (x : Reg),
    WritesI (exec (.ldI nnn) s) s (nnn.setWidth 16) ∧
    WritesI (exec (.addI x) s) s (BitVec.ofNat 16 (s.i.toNat + (s.readV x).toNat))

/-- Fx29 (R172): a digit's glyph address, or FontDigitOutOfRange above 0xF with the spec's own value of FONT_OOR
(D15, log entry 8); with the other value of
the parameter it always computes. -/
def Obligations.FontAddressOfDigit : Prop :=
  ∀ (s : State) (x : Reg),
    ((s.readV x).toNat ≤ 0xF → WritesI (exec (.ldF x) s) s (BitVec.ofNat 16 ((s.readV x).toNat * 5))) ∧
    (0xF < (s.readV x).toNat → TakesFault (.ldF x) s .fontDigitOutOfRange) ∧
    WritesI (execLdFWith .compute x s) s (BitVec.ofNat 16 ((s.readV x).toNat * 5))

/-- Fx33 (R173): the three digits at I, I+1, I+2 and no other byte, or DataOutOfBounds before any write. -/
def Obligations.BcdStoresThreeDigits : Prop :=
  ∀ (s : State) (x : Reg),
    (s.i.toNat + 2 ≤ 0xFFF → ∃ t, exec (.ldB x) s = .next t ∧
      (t.readMem s.i.toNat).toNat = (s.readV x).toNat / 100 ∧
      (t.readMem (s.i.toNat + 1)).toNat = (s.readV x).toNat / 10 % 10 ∧
      (t.readMem (s.i.toNat + 2)).toNat = (s.readV x).toNat % 10 ∧
      t.pc = s.pc + 2 ∧ t.keyWait = false ∧
      Frame { mem := fun a => decide (s.i.toNat ≤ a ∧ a < s.i.toNat + 3) } s t) ∧
    (0xFFF < s.i.toNat + 2 → TakesFault (.ldB x) s .dataOutOfBounds)

/-- Fx55 (R174): `V0..Vx` to `M[I..I+x]` and no other byte, I kept under the spec's own value of LDST_INC_I (D14, log
entry 7) and advanced by `x + 1` mod 2^16
under the other value, or, under both, DataOutOfBounds before any write. -/
def Obligations.RangeStoreWritesRegisters : Prop :=
  ∀ (s : State) (x : Reg),
    (s.i.toNat + x.val ≤ 0xFFF →
      (∃ t, exec (.ldMemVx x) s = .next t ∧ (∀ k : Reg, k ≤ x → t.readMem (s.i.toNat + k.val) = s.readV k) ∧
        t.pc = s.pc + 2 ∧ t.keyWait = false ∧
        Frame { mem := fun a => decide (s.i.toNat ≤ a ∧ a < s.i.toNat + x.val + 1) } s t) ∧
      (∃ t, execLdMemVxWith true x s = .next t ∧ (∀ k : Reg, k ≤ x → t.readMem (s.i.toNat + k.val) = s.readV k) ∧
        t.i = BitVec.ofNat 16 (s.i.toNat + x.val + 1) ∧ t.pc = s.pc + 2 ∧ t.keyWait = false ∧
        Frame { i := true, mem := fun a => decide (s.i.toNat ≤ a ∧ a < s.i.toNat + x.val + 1) } s t)) ∧
    (0xFFF < s.i.toNat + x.val →
      TakesFault (.ldMemVx x) s .dataOutOfBounds ∧ execLdMemVxWith true x s = exec (.ldMemVx x) s)

/-- Fx65 (R175): `M[I..I+x]` to `V0..Vx` and no other register, I as for Fx55, or, under both values,
DataOutOfBounds before any write. -/
def Obligations.RangeLoadReadsRegisters : Prop :=
  ∀ (s : State) (x : Reg),
    (s.i.toNat + x.val ≤ 0xFFF →
      (∃ t, exec (.ldVxMem x) s = .next t ∧ (∀ k : Reg, k ≤ x → t.readV k = s.readMem (s.i.toNat + k.val)) ∧
        t.pc = s.pc + 2 ∧ t.keyWait = false ∧ Frame { v := fun r => decide (r ≤ x) } s t) ∧
      (∃ t, execLdVxMemWith true x s = .next t ∧ (∀ k : Reg, k ≤ x → t.readV k = s.readMem (s.i.toNat + k.val)) ∧
        t.i = BitVec.ofNat 16 (s.i.toNat + x.val + 1) ∧ t.pc = s.pc + 2 ∧ t.keyWait = false ∧
        Frame { v := fun r => decide (r ≤ x), i := true } s t)) ∧
    (0xFFF < s.i.toNat + x.val →
      TakesFault (.ldVxMem x) s .dataOutOfBounds ∧ execLdVxMemWith true x s = exec (.ldVxMem x) s)

/-- Registers stored by Fx55 and then loaded by Fx65 from the I that the Fx55 left come back, whatever the registers held
between (R174, R175, R72). It is the same I only because LDST_INC_I = false, the spec's own decision (D14, log entry 7):
under the other value the Fx65 reads the bytes above. -/
def Obligations.StoreThenLoadRestoresRegisters : Prop :=
  ∀ (s : State) (x : Reg) (w : Vector Byte 16), s.i.toNat + x.val ≤ 0xFFF →
    ∃ t u, exec (.ldMemVx x) s = .next t ∧ exec (.ldVxMem x) { t with v := w } = .next u ∧
      (∀ k : Reg, k ≤ x → u.readV k = s.readV k) ∧ ∀ k : Reg, x < k → u.readV k = w[k.val]

/-- A store over the next instruction is what the next fetch reads (R75): with `pc0 + 2 = I + k` and `k + 1 <= x`, Fx55 makes
the next word `V[k] ++ V[k+1]`. -/
def Obligations.StoreChangesTheNextFetch : Prop :=
  ∀ (s : State) (x : Reg) (k : Nat) (_ : k + 1 ≤ x.val), s.i.toNat + x.val ≤ 0xFFF →
    s.pc.toNat + 2 = s.i.toNat + k →
    ∃ t, exec (.ldMemVx x) s = .next t ∧
      t.fetchWord = some (wordOfBytes (s.readV ⟨k, by omega⟩) (s.readV ⟨k + 1, by omega⟩))

/-! ### Keys and timers (43_timers_keys.md) -/

/-- Ex9E and ExA1 (R190, R191, R192): skip on the key `V[x]`, or KeyIndexOutOfRange above 0xF, the spec's own
decision (D16, log entry 13). -/
def Obligations.KeySkips : Prop :=
  ∀ (s : State) (x : Reg),
    (∀ h : (s.readV x).toNat < 16,
      MovesPc (exec (.skp x) s) s (if s.key[(s.readV x).toNat] = true then s.pc + 4 else s.pc + 2) ∧
      MovesPc (exec (.sknp x) s) s (if s.key[(s.readV x).toNat] = true then s.pc + 2 else s.pc + 4)) ∧
    (0xF < (s.readV x).toNat →
      TakesFault (.skp x) s .keyIndexOutOfRange ∧ TakesFault (.sknp x) s .keyIndexOutOfRange)

/-- Fx0A (R194): the lowest pressed key to `V[x]` with KEY_WAIT 0; with no key, `pc` stays `pc0` and KEY_WAIT is 1. -/
def Obligations.KeyReadOrWait : Prop :=
  ∀ (s : State) (x : Reg),
    (∀ k : Fin 16, s.key[k.val] = true → (∀ j : Fin 16, j < k → s.key[j.val] = false) →
      WritesReg (exec (.ldVxK x) s) s x (BitVec.ofNat 8 k.val)) ∧
    ((∀ k : Fin 16, s.key[k.val] = false) →
      ∃ t, exec (.ldVxK x) s = .next t ∧ t.pc = s.pc ∧ t.keyWait = true ∧ Frame { } s t)

/-- Fx07, Fx15 and Fx18 (R193, R195, R196). -/
def Obligations.TimerInstructions : Prop :=
  ∀ (s : State) (x : Reg),
    WritesReg (exec (.ldVxDt x) s) s x s.dt ∧
    (∃ t, exec (.ldDtVx x) s = .next t ∧ t.dt = s.readV x ∧ t.pc = s.pc + 2 ∧ t.keyWait = false ∧
      Frame { dt := true } s t) ∧
    (∃ t, exec (.ldStVx x) s = .next t ∧ t.st = s.readV x ∧ t.pc = s.pc + 2 ∧ t.keyWait = false ∧
      Frame { st := true } s t)

/-- TICK (R200): each timer down by one, stopping at zero, and nothing else, in every state. -/
def Obligations.TickCountsDownToZero : Prop :=
  ∀ s : State, ∃ t, command .tick s = .next t ∧ t.dt.toNat = s.dt.toNat - 1 ∧ t.st.toNat = s.st.toNat - 1 ∧
    t = { s with dt := t.dt, st := t.st }

/-! ### Display (44_display.md) -/

/-- 00E0 (R210): every cell false, and nothing else; VF is not written. -/
def Obligations.ClearScreen : Prop :=
  ∀ s : State, ∃ t, exec .cls s = .next t ∧ (∀ X Y, t.cell X Y = false) ∧ t.pc = s.pc + 2 ∧ t.keyWait = false ∧
    Frame { fb := true } s t

/-- Dxyn (R212, R211): the cells under the set bits of the sprite flip and no other, VF is 1 exactly when a lit cell was
flipped; or DataOutOfBounds before any pixel. With `n = 0` nothing is drawn, VF is 0 and no bound is checked.
The bit order and `n = 0` are the spec's own decisions (D18 and D19, log entry 12). -/
def Obligations.DrawSpriteXorsAndCollides : Prop :=
  ∀ (s : State) (x y : Reg) (n : Fin 16),
    (n.val = 0 ∨ s.i.toNat + (n.val - 1) ≤ 0xFFF →
      ∃ t, exec (.drw x y n) s = .next t ∧
        (∀ X Y,
          (SpriteCovers s (s.readV x).toNat (s.readV y).toNat n.val X.val Y.val → t.cell X Y = !s.cell X Y) ∧
          (¬ SpriteCovers s (s.readV x).toNat (s.readV y).toNat n.val X.val Y.val → t.cell X Y = s.cell X Y)) ∧
        ((∃ X Y, SpriteCovers s (s.readV x).toNat (s.readV y).toNat n.val X.val Y.val ∧ s.cell X Y = true) →
          t.readV Reg.vf = 1) ∧
        ((∀ X Y, SpriteCovers s (s.readV x).toNat (s.readV y).toNat n.val X.val Y.val → s.cell X Y = false) →
          t.readV Reg.vf = 0) ∧
        t.pc = s.pc + 2 ∧ t.keyWait = false ∧ Frame { v := fun r => r == Reg.vf, fb := true } s t) ∧
    (0 < n.val → 0xFFF < s.i.toNat + (n.val - 1) → TakesFault (.drw x y n) s .dataOutOfBounds)

/-- Drawing twice at the same place restores every cell (R212); on a clear screen, with a set bit in the sprite, VF is 0
after the first draw and 1 after the second (95_test_vectors.md S9). VF is no coordinate, so the place is the same. -/
def Obligations.DrawTwiceRestores : Prop :=
  ∀ (s : State) (x y : Reg) (n : Fin 16), x ≠ Reg.vf → y ≠ Reg.vf →
    (n.val = 0 ∨ s.i.toNat + (n.val - 1) ≤ 0xFFF) →
    ∃ t u, exec (.drw x y n) s = .next t ∧ exec (.drw x y n) t = .next u ∧ (∀ X Y, u.cell X Y = s.cell X Y) ∧
      ((∀ X Y, s.cell X Y = false) →
        (∃ X Y, SpriteCovers s (s.readV x).toNat (s.readV y).toNat n.val X Y) →
        t.readV Reg.vf = 0 ∧ u.readV Reg.vf = 1)

/-! ### Loading, reset and the views (20_memory.md, 70_reset_and_hazards.md, 10_state.md) -/

/-- LOAD (R70, R71): up to 3584 bytes go to 0x200 and up, no other byte or field changes, and LOAD_ERROR is 0; more are
rejected with LOAD_ERROR 1 and nothing else changed. In every state. -/
def Obligations.LoadIsAllOrNothing : Prop :=
  ∀ (s : State) (bytes : List Byte),
    (bytes.length ≤ 3584 → ∃ t, command (.load bytes) s = .next t ∧
      (∀ j (h : j < bytes.length), t.readMem (0x200 + j) = bytes[j]) ∧
      (∀ a, a < 0x200 ∨ 0x200 + bytes.length ≤ a → t.readMem a = s.readMem a) ∧
      t.loadError = false ∧ t = { s with mem := t.mem, loadError := false }) ∧
    (3584 < bytes.length → command (.load bytes) s = .next { s with loadError := true })

/-- RESET and construction (R260, R261): every field at the table's value, whatever the state before. The zeros of I and of
memory above the font (D22, log entry 5) and the font bytes (D17, log entry 9) are the spec's own decisions. -/
def Obligations.ResetSetsEveryField : Prop :=
  ∀ s t : State, command .reset s = .next t ∨ t = State.reset →
    (∀ r, t.readV r = 0) ∧ t.i = 0 ∧ t.pc = 0x200 ∧ t.sp = 0 ∧ (∀ j : Fin 16, t.stack[j.val] = 0) ∧
    t.dt = 0 ∧ t.st = 0 ∧ (∀ k : Fin 16, t.key[k.val] = false) ∧ (∀ X Y, t.cell X Y = false) ∧
    (∀ d (_ : d < 16), [t.readMem (5 * d), t.readMem (5 * d + 1), t.readMem (5 * d + 2), t.readMem (5 * d + 3),
        t.readMem (5 * d + 4)] = ([[0xF0, 0x90, 0x90, 0x90, 0xF0], [0x20, 0x60, 0x20, 0x20, 0x70],
        [0xF0, 0x10, 0xF0, 0x80, 0xF0], [0xF0, 0x10, 0xF0, 0x10, 0xF0], [0x90, 0x90, 0xF0, 0x10, 0x10],
        [0xF0, 0x80, 0xF0, 0x10, 0xF0], [0xF0, 0x80, 0xF0, 0x90, 0xF0], [0xF0, 0x10, 0x20, 0x40, 0x40],
        [0xF0, 0x90, 0xF0, 0x90, 0xF0], [0xF0, 0x90, 0xF0, 0x10, 0xF0], [0xF0, 0x90, 0xF0, 0x90, 0x90],
        [0xE0, 0x90, 0xE0, 0x90, 0xE0], [0xF0, 0x80, 0x80, 0x80, 0xF0], [0xE0, 0x90, 0x90, 0x90, 0xE0],
        [0xF0, 0x80, 0xF0, 0x80, 0xF0], [0xF0, 0x80, 0xF0, 0x80, 0x80]] : List (List Byte))[d]) ∧
    (∀ a, 0x50 ≤ a → t.readMem a = 0) ∧
    t.cause = 0 ∧ t.faultPc = 0 ∧ t.faultWord = 0 ∧ t.keyWait = false ∧ t.loadError = false

/-- A STEP before any LOAD fetches 0x0000 at 0x200 and latches UnimplementedOpcode (R263, R97), for every draw. Memory is
zero there by the spec's own decision (D22, log entry 5). -/
def Obligations.FirstStepAfterResetFaults : Prop :=
  ∀ r : Byte, command (.step r) State.reset =
    .next { State.reset with rnd := r, cause := 1, faultPc := 0x200, faultWord := 0 }

/-- STATUS (R55): CAUSE in bits 3..0, halted in bit 4, KEY_WAIT in bit 5, LOAD_ERROR in bit 6 and zeros above. -/
def Obligations.StatusPacksTheFlags : Prop :=
  ∀ s : State, s.status.extractLsb' 0 4 = s.cause ∧ (s.status.getLsbD 4 = true ↔ s.cause ≠ 0) ∧
    s.status.getLsbD 5 = s.keyWait ∧ s.status.getLsbD 6 = s.loadError ∧ s.status.extractLsb' 7 9 = 0

/-- The framebuffer view by linear index is row-major, `index = x + 64*y` (R38). -/
def Obligations.PixelViewIsRowMajor : Prop :=
  ∀ (s : State) (X : Fin 64) (Y : Fin 32), ∃ h : X.val + 64 * Y.val < 2048, s.pixel ⟨X.val + 64 * Y.val, h⟩ = s.cell X Y

/-- The halt loop holds still (R270 b, R123): at a `JP` to its own address a STEP changes nothing but KEY_WAIT, so the state
is final again. -/
def Obligations.HaltLoopStaysFinal : Prop :=
  ∀ (s : State) (r : Byte), s.cause = 0 → s.atHaltLoop = true →
    command (.step r) s = .next { s with rnd := r, keyWait := false } ∧
    ∀ t, command (.step r) s = .next t → t.atHaltLoop = true ∧ t.final = true

/-! ### The invariant -/

/-- The invariant `Inv` holds after reset. -/
def Obligations.ResetMeetsInvariant : Prop := Inv State.reset

/-- THE INVARIANT IS KEPT BY EVERY STEP: from every state with `Inv`, whatever instruction memory holds there and whatever
command the host has issued, the next state has `Inv`. It says that memory keeps its canonical form and lists only addresses
below 4096, that the pc stays at or below 0x10FE (R27) and every return address at or below 0x1000 (R122), that the latch is
clear without a fault, and that a latched fault names its pc and a word that explains it with a code of 1 to 7
(R43, R221, R222, R224). -/
def Obligations.EveryStepKeepsInvariant : Prop := ∀ s t : State, Inv s → step s = .next t → Inv t

/-- Loading a word where the fetch reads and stepping runs exactly it (R220): with `withFetchWord` the very next step is the
meaning of the word's instruction. The host's interface; log entry 10. -/
def Obligations.FetchWordRunsNext : Prop :=
  ∀ (s : State) (w : Nat) (i : Instr), decodeTableWord 16 w = some i →
    step (s.withFetchWord 16 w) =
      exec i { s.withFetchWord 16 w with rnd := Config.freeDraw s.draws, draws := s.draws + 1 }

/-! ### The end of a run (70_reset_and_hazards.md) -/

/-- The end of a run (R270) is the FIRST final STEP boundary: a run that reaches a final STEP boundary has an end at or before
it, and only one; and at no STEP boundary of a safe run, its end included, is a fault latched, so a halt loop reached after a
fault, RESET and LOAD is no end. What counts as a STEP boundary is the model's reading (log entry 23). -/
def Obligations.EndOfRunIsFirstAndOnly : Prop :=
  (∀ (s u : State) (k : Nat), StepBoundary k s u → u.final = true →
    ∃ j t, j ≤ k ∧ EndsAt j s t ∧ ∀ j' t', EndsAt j' s t' → j' = j ∧ t' = t) ∧
  (∀ (s t u : State) (j k : Nat), SafeRun k s t → j ≤ k → StepBoundary j s u → u.cause = 0)
end

