-- ==== Sys2Proof/Laws/Decode.lean ====
section
/-! SUPPORT. The fields of an assembled word, a word from its fields, and the bytes of a word. -/

namespace Sys2Proof

theorem Word.toNat_lt (w : Word) : w.toNat < 0x10000 := w.isLt

/-! ### A word from its fields (R91) -/

theorem opField_lt (w : Word) : opField w < 16 := Nat.mod_lt _ (by decide)

/-- A word is its four nibbles (R91). -/
theorem toNat_eq_xyn (w : Word) :
    w.toNat = opField w * 0x1000 + (xField w).val * 0x100 + (yField w).val * 0x10 + (nField w).val := by
  have := w.isLt; simp only [opField, xField, yField, nField, slice]; omega

/-- A word is its opcode family, `x` and `kk` (R91). -/
theorem toNat_eq_xkk (w : Word) : w.toNat = opField w * 0x1000 + (xField w).val * 0x100 + (kkField w).toNat := by
  have := w.isLt; simp only [opField, xField, kkField, slice, BitVec.toNat_ofNat]; omega

/-- A word is its opcode family and `nnn` (R91). -/
theorem toNat_eq_nnn (w : Word) : w.toNat = opField w * 0x1000 + (nnnField w).toNat := by
  have := w.isLt; simp only [opField, nnnField, slice, BitVec.toNat_ofNat]; omega

/-- Assembling the nibbles of a word gives it back (R91). -/
theorem encodeXyn_fields {w : Word} {op : Nat} (h : opField w = op) :
    encodeXyn op (xField w) (yField w) (nField w) = w := by
  subst h; rw [encodeXyn, ← toNat_eq_xyn]; exact BitVec.ofNat_toNat 16 w ▸ BitVec.setWidth_eq w

theorem encodeXkk_fields {w : Word} {op : Nat} (h : opField w = op) :
    encodeXkk op (xField w) (kkField w) = w := by
  subst h; rw [encodeXkk, ← toNat_eq_xkk]; exact BitVec.ofNat_toNat 16 w ▸ BitVec.setWidth_eq w

theorem encodeNnn_fields {w : Word} {op : Nat} (h : opField w = op) : encodeNnn op (nnnField w) = w := by
  subst h; rw [encodeNnn, ← toNat_eq_nnn]; exact BitVec.ofNat_toNat 16 w ▸ BitVec.setWidth_eq w

/-! ### The fields of an assembled word -/

theorem toNat_encodeNnn {op : Nat} (h : op < 16) (nnn : Addr) :
    (encodeNnn op nnn).toNat = op * 0x1000 + nnn.toNat := by
  have := nnn.isLt; simp only [encodeNnn, BitVec.toNat_ofNat]; omega

theorem toNat_encodeXkk {op : Nat} (h : op < 16) (x : Reg) (kk : Byte) :
    (encodeXkk op x kk).toNat = op * 0x1000 + x.val * 0x100 + kk.toNat := by
  have := kk.isLt; have := x.isLt; simp only [encodeXkk, BitVec.toNat_ofNat]; omega

theorem toNat_encodeXyn {op : Nat} (h : op < 16) (x y : Reg) (n : Fin 16) :
    (encodeXyn op x y n).toNat = op * 0x1000 + x.val * 0x100 + y.val * 0x10 + n.val := by
  have := x.isLt; have := y.isLt; have := n.isLt; simp only [encodeXyn, BitVec.toNat_ofNat]; omega

theorem opField_encodeNnn {op : Nat} (h : op < 16) (nnn : Addr) : opField (encodeNnn op nnn) = op := by
  have := nnn.isLt; simp only [opField, slice, toNat_encodeNnn h]; omega

theorem nnnField_encodeNnn {op : Nat} (h : op < 16) (nnn : Addr) : nnnField (encodeNnn op nnn) = nnn := by
  have := nnn.isLt
  apply BitVec.eq_of_toNat_eq; simp only [nnnField, slice, toNat_encodeNnn h, BitVec.toNat_ofNat]; omega

theorem opField_encodeXkk {op : Nat} (h : op < 16) (x : Reg) (kk : Byte) : opField (encodeXkk op x kk) = op := by
  have := x.isLt; have := kk.isLt; simp only [opField, slice, toNat_encodeXkk h]; omega

theorem xField_encodeXkk {op : Nat} (h : op < 16) (x : Reg) (kk : Byte) : xField (encodeXkk op x kk) = x := by
  have := x.isLt; have := kk.isLt
  apply Fin.ext; simp only [xField, slice, toNat_encodeXkk h]; omega

theorem kkField_encodeXkk {op : Nat} (h : op < 16) (x : Reg) (kk : Byte) : kkField (encodeXkk op x kk) = kk := by
  have := x.isLt; have := kk.isLt
  apply BitVec.eq_of_toNat_eq; simp only [kkField, slice, toNat_encodeXkk h, BitVec.toNat_ofNat]; omega

theorem opField_encodeXyn {op : Nat} (h : op < 16) (x y : Reg) (n : Fin 16) : opField (encodeXyn op x y n) = op := by
  have := x.isLt; have := y.isLt; have := n.isLt; simp only [opField, slice, toNat_encodeXyn h]; omega

theorem xField_encodeXyn {op : Nat} (h : op < 16) (x y : Reg) (n : Fin 16) : xField (encodeXyn op x y n) = x := by
  have := x.isLt; have := y.isLt; have := n.isLt
  apply Fin.ext; simp only [xField, slice, toNat_encodeXyn h]; omega

theorem yField_encodeXyn {op : Nat} (h : op < 16) (x y : Reg) (n : Fin 16) : yField (encodeXyn op x y n) = y := by
  have := x.isLt; have := y.isLt; have := n.isLt
  apply Fin.ext; simp only [yField, slice, toNat_encodeXyn h]; omega

theorem nField_encodeXyn {op : Nat} (h : op < 16) (x y : Reg) (n : Fin 16) : nField (encodeXyn op x y n) = n := by
  have := x.isLt; have := y.isLt; have := n.isLt
  apply Fin.ext; simp only [nField, slice, toNat_encodeXyn h]; omega

/-! ### The masks of the opcode table as fields (R95) -/

/-- A mask of `k` ones from bit `lo` keeps the slice of that place and width. -/
theorem and_mask (a lo k : Nat) : a &&& ((2 ^ k - 1) <<< lo) = (a / 2 ^ lo % 2 ^ k) * 2 ^ lo := by
  rw [← Nat.shiftLeft_eq, ← Nat.shiftRight_eq_div_pow]
  apply Nat.eq_of_testBit_eq
  intro j
  simp only [Nat.testBit_and, Nat.testBit_shiftLeft, Nat.testBit_two_pow_sub_one, Nat.testBit_mod_two_pow,
    Nat.testBit_shiftRight]
  by_cases h : lo ≤ j
  · simp [h, Bool.and_comm]
  · simp [h]

/-- Mask F000 keeps the opcode family. -/
theorem toNat_and_F000 (w : Word) : (w &&& 0xF000#16).toNat = opField w * 0x1000 := by
  have h := and_mask w.toNat 12 4
  simpa [BitVec.toNat_and, opField, slice] using h

/-- Mask F00F keeps the opcode family and `n`. -/
theorem toNat_and_F00F (w : Word) : (w &&& 0xF00F#16).toNat = opField w * 0x1000 + (nField w).val := by
  have h1 := and_mask w.toNat 12 4
  have h2 := and_mask w.toNat 0 4
  have h3 : (0xF00F : Nat) = (2 ^ 4 - 1) <<< 12 ||| (2 ^ 4 - 1) <<< 0 := by decide
  have h4 : (w &&& 0xF00F#16).toNat = w.toNat &&& 0xF00F := by simp [BitVec.toNat_and]
  have hn : (nField w).val < 2 ^ 12 := Nat.lt_trans (nField w).isLt (by decide)
  have h5 := Nat.shiftLeft_add_eq_or_of_lt hn (opField w)
  rw [h4, h3, Nat.and_or_distrib_left, h1, h2]
  simp only [Nat.shiftLeft_eq] at h5
  rw [show (0x1000 : Nat) = 2 ^ 12 by decide, h5]
  simp [opField, nField, slice]

/-- Mask F0FF keeps the opcode family and `kk`. -/
theorem toNat_and_F0FF (w : Word) : (w &&& 0xF0FF#16).toNat = opField w * 0x1000 + (kkField w).toNat := by
  have h1 := and_mask w.toNat 12 4
  have h2 := and_mask w.toNat 0 8
  have h3 : (0xF0FF : Nat) = (2 ^ 4 - 1) <<< 12 ||| (2 ^ 8 - 1) <<< 0 := by decide
  have h4 : (w &&& 0xF0FF#16).toNat = w.toNat &&& 0xF0FF := by simp [BitVec.toNat_and]
  have hn : (kkField w).toNat < 2 ^ 12 := Nat.lt_trans (kkField w).isLt (by decide)
  have h5 := Nat.shiftLeft_add_eq_or_of_lt hn (opField w)
  rw [h4, h3, Nat.and_or_distrib_left, h1, h2]
  simp only [Nat.shiftLeft_eq] at h5
  rw [show (0x1000 : Nat) = 2 ^ 12 by decide, h5]
  simp [opField, kkField, slice]

/-- A row whose mask is F000 is selected by its opcode family alone. -/
theorem selects_F000 (m : String) (p w : Word) :
    Row.selects ⟨m, 0xF000#16, p⟩ w = true ↔ opField w * 0x1000 = p.toNat := by
  rw [Row.selects, beq_iff_eq, ← toNat_and_F000]; exact BitVec.toNat_inj.symm

/-- A row whose mask is F00F is selected by its opcode family and `n`. -/
theorem selects_F00F (m : String) (p w : Word) :
    Row.selects ⟨m, 0xF00F#16, p⟩ w = true ↔ opField w * 0x1000 + (nField w).val = p.toNat := by
  rw [Row.selects, beq_iff_eq, ← toNat_and_F00F]; exact BitVec.toNat_inj.symm

/-- A row whose mask is F0FF is selected by its opcode family and `kk`. -/
theorem selects_F0FF (m : String) (p w : Word) :
    Row.selects ⟨m, 0xF0FF#16, p⟩ w = true ↔ opField w * 0x1000 + (kkField w).toNat = p.toNat := by
  rw [Row.selects, beq_iff_eq, ← toNat_and_F0FF]; exact BitVec.toNat_inj.symm

/-- A row whose mask is FFFF is selected by one word. -/
theorem selects_FFFF (m : String) (p w : Word) : Row.selects ⟨m, 0xFFFF#16, p⟩ w = true ↔ w.toNat = p.toNat := by
  rw [Row.selects, beq_iff_eq, show (0xFFFF#16 : Word) = BitVec.allOnes 16 by decide, BitVec.and_allOnes]
  exact BitVec.toNat_inj.symm

/-! ### The bytes of a word (R64) -/

/-- The two bytes of a word, high first, make the word again (R64). -/
theorem wordOfBytes_bytes (w : Word) : wordOfBytes (hiByte w) (loByte w) = w := by
  have := w.isLt
  apply BitVec.eq_of_toNat_eq; simp only [wordOfBytes, hiByte, loByte, BitVec.toNat_ofNat]; omega

/-- The host's numbering of a 16-bit word is the word's own. -/
theorem decodeTableWord_eq (w : Nat) : decodeTableWord 16 w = decode (BitVec.ofNat 16 w) := by
  have hw : (BitVec.ofNat 16 (w % 2 ^ 16) : Word) = BitVec.ofNat 16 w := by
    apply BitVec.eq_of_toNat_eq; simp only [BitVec.toNat_ofNat]; omega
  simp only [decodeTableWord, decodeBytes, hw, wordOfBytes_bytes]
  cases decode (BitVec.ofNat 16 w) <;> rfl

end Sys2Proof
end

