-- ==== Sys2Proof/Laws/State.lean ====
section
/-! SUPPORT. One lemma a field for each named update of the state, so that no proof unfolds a record update; then the same
for the three read views of registers, memory and framebuffer. -/

namespace Sys2Proof.Machine

variable (s : State)

/-! ### `State.writeV` -/

@[simp] theorem State.writeV_v (r : Reg) (b : Byte) : (s.writeV r b).v = s.v.set r.val b := rfl
@[simp] theorem State.writeV_i (r : Reg) (b : Byte) : (s.writeV r b).i = s.i := rfl
@[simp] theorem State.writeV_pc (r : Reg) (b : Byte) : (s.writeV r b).pc = s.pc := rfl
@[simp] theorem State.writeV_sp (r : Reg) (b : Byte) : (s.writeV r b).sp = s.sp := rfl
@[simp] theorem State.writeV_stack (r : Reg) (b : Byte) : (s.writeV r b).stack = s.stack := rfl
@[simp] theorem State.writeV_dt (r : Reg) (b : Byte) : (s.writeV r b).dt = s.dt := rfl
@[simp] theorem State.writeV_st (r : Reg) (b : Byte) : (s.writeV r b).st = s.st := rfl
@[simp] theorem State.writeV_key (r : Reg) (b : Byte) : (s.writeV r b).key = s.key := rfl
@[simp] theorem State.writeV_fb (r : Reg) (b : Byte) : (s.writeV r b).fb = s.fb := rfl
@[simp] theorem State.writeV_mem (r : Reg) (b : Byte) : (s.writeV r b).mem = s.mem := rfl
@[simp] theorem State.writeV_cause (r : Reg) (b : Byte) : (s.writeV r b).cause = s.cause := rfl
@[simp] theorem State.writeV_faultPc (r : Reg) (b : Byte) : (s.writeV r b).faultPc = s.faultPc := rfl
@[simp] theorem State.writeV_faultWord (r : Reg) (b : Byte) : (s.writeV r b).faultWord = s.faultWord := rfl
@[simp] theorem State.writeV_keyWait (r : Reg) (b : Byte) : (s.writeV r b).keyWait = s.keyWait := rfl
@[simp] theorem State.writeV_loadError (r : Reg) (b : Byte) : (s.writeV r b).loadError = s.loadError := rfl
@[simp] theorem State.writeV_rnd (r : Reg) (b : Byte) : (s.writeV r b).rnd = s.rnd := rfl
@[simp] theorem State.writeV_draws (r : Reg) (b : Byte) : (s.writeV r b).draws = s.draws := rfl
@[simp] theorem State.writeV_pending (r : Reg) (b : Byte) : (s.writeV r b).pending = s.pending := rfl
@[simp] theorem State.readMem_writeV (r : Reg) (b : Byte) (a' : Nat) : (s.writeV r b).readMem a' = s.readMem a' := rfl
@[simp] theorem State.cell_writeV (r : Reg) (b : Byte) (x' : Fin 64) (y' : Fin 32) : (s.writeV r b).cell x' y' = s.cell x' y' := rfl
@[simp] theorem State.halted_writeV (r : Reg) (b : Byte) : (s.writeV r b).halted = s.halted := rfl

/-! ### `State.withV` -/

@[simp] theorem State.withV_v (w : Vector Byte 16) : (s.withV w).v = w := rfl
@[simp] theorem State.withV_i (w : Vector Byte 16) : (s.withV w).i = s.i := rfl
@[simp] theorem State.withV_pc (w : Vector Byte 16) : (s.withV w).pc = s.pc := rfl
@[simp] theorem State.withV_sp (w : Vector Byte 16) : (s.withV w).sp = s.sp := rfl
@[simp] theorem State.withV_stack (w : Vector Byte 16) : (s.withV w).stack = s.stack := rfl
@[simp] theorem State.withV_dt (w : Vector Byte 16) : (s.withV w).dt = s.dt := rfl
@[simp] theorem State.withV_st (w : Vector Byte 16) : (s.withV w).st = s.st := rfl
@[simp] theorem State.withV_key (w : Vector Byte 16) : (s.withV w).key = s.key := rfl
@[simp] theorem State.withV_fb (w : Vector Byte 16) : (s.withV w).fb = s.fb := rfl
@[simp] theorem State.withV_mem (w : Vector Byte 16) : (s.withV w).mem = s.mem := rfl
@[simp] theorem State.withV_cause (w : Vector Byte 16) : (s.withV w).cause = s.cause := rfl
@[simp] theorem State.withV_faultPc (w : Vector Byte 16) : (s.withV w).faultPc = s.faultPc := rfl
@[simp] theorem State.withV_faultWord (w : Vector Byte 16) : (s.withV w).faultWord = s.faultWord := rfl
@[simp] theorem State.withV_keyWait (w : Vector Byte 16) : (s.withV w).keyWait = s.keyWait := rfl
@[simp] theorem State.withV_loadError (w : Vector Byte 16) : (s.withV w).loadError = s.loadError := rfl
@[simp] theorem State.withV_rnd (w : Vector Byte 16) : (s.withV w).rnd = s.rnd := rfl
@[simp] theorem State.withV_draws (w : Vector Byte 16) : (s.withV w).draws = s.draws := rfl
@[simp] theorem State.withV_pending (w : Vector Byte 16) : (s.withV w).pending = s.pending := rfl
@[simp] theorem State.readMem_withV (w : Vector Byte 16) (a' : Nat) : (s.withV w).readMem a' = s.readMem a' := rfl
@[simp] theorem State.cell_withV (w : Vector Byte 16) (x' : Fin 64) (y' : Fin 32) : (s.withV w).cell x' y' = s.cell x' y' := rfl
@[simp] theorem State.halted_withV (w : Vector Byte 16) : (s.withV w).halted = s.halted := rfl

/-! ### `State.withMem` -/

@[simp] theorem State.withMem_v (m : Memory) : (s.withMem m).v = s.v := rfl
@[simp] theorem State.withMem_i (m : Memory) : (s.withMem m).i = s.i := rfl
@[simp] theorem State.withMem_pc (m : Memory) : (s.withMem m).pc = s.pc := rfl
@[simp] theorem State.withMem_sp (m : Memory) : (s.withMem m).sp = s.sp := rfl
@[simp] theorem State.withMem_stack (m : Memory) : (s.withMem m).stack = s.stack := rfl
@[simp] theorem State.withMem_dt (m : Memory) : (s.withMem m).dt = s.dt := rfl
@[simp] theorem State.withMem_st (m : Memory) : (s.withMem m).st = s.st := rfl
@[simp] theorem State.withMem_key (m : Memory) : (s.withMem m).key = s.key := rfl
@[simp] theorem State.withMem_fb (m : Memory) : (s.withMem m).fb = s.fb := rfl
@[simp] theorem State.withMem_mem (m : Memory) : (s.withMem m).mem = m := rfl
@[simp] theorem State.withMem_cause (m : Memory) : (s.withMem m).cause = s.cause := rfl
@[simp] theorem State.withMem_faultPc (m : Memory) : (s.withMem m).faultPc = s.faultPc := rfl
@[simp] theorem State.withMem_faultWord (m : Memory) : (s.withMem m).faultWord = s.faultWord := rfl
@[simp] theorem State.withMem_keyWait (m : Memory) : (s.withMem m).keyWait = s.keyWait := rfl
@[simp] theorem State.withMem_loadError (m : Memory) : (s.withMem m).loadError = s.loadError := rfl
@[simp] theorem State.withMem_rnd (m : Memory) : (s.withMem m).rnd = s.rnd := rfl
@[simp] theorem State.withMem_draws (m : Memory) : (s.withMem m).draws = s.draws := rfl
@[simp] theorem State.withMem_pending (m : Memory) : (s.withMem m).pending = s.pending := rfl
@[simp] theorem State.readV_withMem (m : Memory) (r' : Reg) : (s.withMem m).readV r' = s.readV r' := rfl
@[simp] theorem State.cell_withMem (m : Memory) (x' : Fin 64) (y' : Fin 32) : (s.withMem m).cell x' y' = s.cell x' y' := rfl
@[simp] theorem State.halted_withMem (m : Memory) : (s.withMem m).halted = s.halted := rfl

/-! ### `State.writeI` -/

@[simp] theorem State.writeI_v (w : Word) : (s.writeI w).v = s.v := rfl
@[simp] theorem State.writeI_i (w : Word) : (s.writeI w).i = w := rfl
@[simp] theorem State.writeI_pc (w : Word) : (s.writeI w).pc = s.pc := rfl
@[simp] theorem State.writeI_sp (w : Word) : (s.writeI w).sp = s.sp := rfl
@[simp] theorem State.writeI_stack (w : Word) : (s.writeI w).stack = s.stack := rfl
@[simp] theorem State.writeI_dt (w : Word) : (s.writeI w).dt = s.dt := rfl
@[simp] theorem State.writeI_st (w : Word) : (s.writeI w).st = s.st := rfl
@[simp] theorem State.writeI_key (w : Word) : (s.writeI w).key = s.key := rfl
@[simp] theorem State.writeI_fb (w : Word) : (s.writeI w).fb = s.fb := rfl
@[simp] theorem State.writeI_mem (w : Word) : (s.writeI w).mem = s.mem := rfl
@[simp] theorem State.writeI_cause (w : Word) : (s.writeI w).cause = s.cause := rfl
@[simp] theorem State.writeI_faultPc (w : Word) : (s.writeI w).faultPc = s.faultPc := rfl
@[simp] theorem State.writeI_faultWord (w : Word) : (s.writeI w).faultWord = s.faultWord := rfl
@[simp] theorem State.writeI_keyWait (w : Word) : (s.writeI w).keyWait = s.keyWait := rfl
@[simp] theorem State.writeI_loadError (w : Word) : (s.writeI w).loadError = s.loadError := rfl
@[simp] theorem State.writeI_rnd (w : Word) : (s.writeI w).rnd = s.rnd := rfl
@[simp] theorem State.writeI_draws (w : Word) : (s.writeI w).draws = s.draws := rfl
@[simp] theorem State.writeI_pending (w : Word) : (s.writeI w).pending = s.pending := rfl
@[simp] theorem State.readV_writeI (w : Word) (r' : Reg) : (s.writeI w).readV r' = s.readV r' := rfl
@[simp] theorem State.readMem_writeI (w : Word) (a' : Nat) : (s.writeI w).readMem a' = s.readMem a' := rfl
@[simp] theorem State.cell_writeI (w : Word) (x' : Fin 64) (y' : Fin 32) : (s.writeI w).cell x' y' = s.cell x' y' := rfl
@[simp] theorem State.halted_writeI (w : Word) : (s.writeI w).halted = s.halted := rfl

/-! ### `State.writeDt` -/

@[simp] theorem State.writeDt_v (b : Byte) : (s.writeDt b).v = s.v := rfl
@[simp] theorem State.writeDt_i (b : Byte) : (s.writeDt b).i = s.i := rfl
@[simp] theorem State.writeDt_pc (b : Byte) : (s.writeDt b).pc = s.pc := rfl
@[simp] theorem State.writeDt_sp (b : Byte) : (s.writeDt b).sp = s.sp := rfl
@[simp] theorem State.writeDt_stack (b : Byte) : (s.writeDt b).stack = s.stack := rfl
@[simp] theorem State.writeDt_dt (b : Byte) : (s.writeDt b).dt = b := rfl
@[simp] theorem State.writeDt_st (b : Byte) : (s.writeDt b).st = s.st := rfl
@[simp] theorem State.writeDt_key (b : Byte) : (s.writeDt b).key = s.key := rfl
@[simp] theorem State.writeDt_fb (b : Byte) : (s.writeDt b).fb = s.fb := rfl
@[simp] theorem State.writeDt_mem (b : Byte) : (s.writeDt b).mem = s.mem := rfl
@[simp] theorem State.writeDt_cause (b : Byte) : (s.writeDt b).cause = s.cause := rfl
@[simp] theorem State.writeDt_faultPc (b : Byte) : (s.writeDt b).faultPc = s.faultPc := rfl
@[simp] theorem State.writeDt_faultWord (b : Byte) : (s.writeDt b).faultWord = s.faultWord := rfl
@[simp] theorem State.writeDt_keyWait (b : Byte) : (s.writeDt b).keyWait = s.keyWait := rfl
@[simp] theorem State.writeDt_loadError (b : Byte) : (s.writeDt b).loadError = s.loadError := rfl
@[simp] theorem State.writeDt_rnd (b : Byte) : (s.writeDt b).rnd = s.rnd := rfl
@[simp] theorem State.writeDt_draws (b : Byte) : (s.writeDt b).draws = s.draws := rfl
@[simp] theorem State.writeDt_pending (b : Byte) : (s.writeDt b).pending = s.pending := rfl
@[simp] theorem State.readV_writeDt (b : Byte) (r' : Reg) : (s.writeDt b).readV r' = s.readV r' := rfl
@[simp] theorem State.readMem_writeDt (b : Byte) (a' : Nat) : (s.writeDt b).readMem a' = s.readMem a' := rfl
@[simp] theorem State.cell_writeDt (b : Byte) (x' : Fin 64) (y' : Fin 32) : (s.writeDt b).cell x' y' = s.cell x' y' := rfl
@[simp] theorem State.halted_writeDt (b : Byte) : (s.writeDt b).halted = s.halted := rfl

/-! ### `State.writeSt` -/

@[simp] theorem State.writeSt_v (b : Byte) : (s.writeSt b).v = s.v := rfl
@[simp] theorem State.writeSt_i (b : Byte) : (s.writeSt b).i = s.i := rfl
@[simp] theorem State.writeSt_pc (b : Byte) : (s.writeSt b).pc = s.pc := rfl
@[simp] theorem State.writeSt_sp (b : Byte) : (s.writeSt b).sp = s.sp := rfl
@[simp] theorem State.writeSt_stack (b : Byte) : (s.writeSt b).stack = s.stack := rfl
@[simp] theorem State.writeSt_dt (b : Byte) : (s.writeSt b).dt = s.dt := rfl
@[simp] theorem State.writeSt_st (b : Byte) : (s.writeSt b).st = b := rfl
@[simp] theorem State.writeSt_key (b : Byte) : (s.writeSt b).key = s.key := rfl
@[simp] theorem State.writeSt_fb (b : Byte) : (s.writeSt b).fb = s.fb := rfl
@[simp] theorem State.writeSt_mem (b : Byte) : (s.writeSt b).mem = s.mem := rfl
@[simp] theorem State.writeSt_cause (b : Byte) : (s.writeSt b).cause = s.cause := rfl
@[simp] theorem State.writeSt_faultPc (b : Byte) : (s.writeSt b).faultPc = s.faultPc := rfl
@[simp] theorem State.writeSt_faultWord (b : Byte) : (s.writeSt b).faultWord = s.faultWord := rfl
@[simp] theorem State.writeSt_keyWait (b : Byte) : (s.writeSt b).keyWait = s.keyWait := rfl
@[simp] theorem State.writeSt_loadError (b : Byte) : (s.writeSt b).loadError = s.loadError := rfl
@[simp] theorem State.writeSt_rnd (b : Byte) : (s.writeSt b).rnd = s.rnd := rfl
@[simp] theorem State.writeSt_draws (b : Byte) : (s.writeSt b).draws = s.draws := rfl
@[simp] theorem State.writeSt_pending (b : Byte) : (s.writeSt b).pending = s.pending := rfl
@[simp] theorem State.readV_writeSt (b : Byte) (r' : Reg) : (s.writeSt b).readV r' = s.readV r' := rfl
@[simp] theorem State.readMem_writeSt (b : Byte) (a' : Nat) : (s.writeSt b).readMem a' = s.readMem a' := rfl
@[simp] theorem State.cell_writeSt (b : Byte) (x' : Fin 64) (y' : Fin 32) : (s.writeSt b).cell x' y' = s.cell x' y' := rfl
@[simp] theorem State.halted_writeSt (b : Byte) : (s.writeSt b).halted = s.halted := rfl

/-! ### `State.withFb` -/

@[simp] theorem State.withFb_v (f : Framebuffer) : (s.withFb f).v = s.v := rfl
@[simp] theorem State.withFb_i (f : Framebuffer) : (s.withFb f).i = s.i := rfl
@[simp] theorem State.withFb_pc (f : Framebuffer) : (s.withFb f).pc = s.pc := rfl
@[simp] theorem State.withFb_sp (f : Framebuffer) : (s.withFb f).sp = s.sp := rfl
@[simp] theorem State.withFb_stack (f : Framebuffer) : (s.withFb f).stack = s.stack := rfl
@[simp] theorem State.withFb_dt (f : Framebuffer) : (s.withFb f).dt = s.dt := rfl
@[simp] theorem State.withFb_st (f : Framebuffer) : (s.withFb f).st = s.st := rfl
@[simp] theorem State.withFb_key (f : Framebuffer) : (s.withFb f).key = s.key := rfl
@[simp] theorem State.withFb_fb (f : Framebuffer) : (s.withFb f).fb = f := rfl
@[simp] theorem State.withFb_mem (f : Framebuffer) : (s.withFb f).mem = s.mem := rfl
@[simp] theorem State.withFb_cause (f : Framebuffer) : (s.withFb f).cause = s.cause := rfl
@[simp] theorem State.withFb_faultPc (f : Framebuffer) : (s.withFb f).faultPc = s.faultPc := rfl
@[simp] theorem State.withFb_faultWord (f : Framebuffer) : (s.withFb f).faultWord = s.faultWord := rfl
@[simp] theorem State.withFb_keyWait (f : Framebuffer) : (s.withFb f).keyWait = s.keyWait := rfl
@[simp] theorem State.withFb_loadError (f : Framebuffer) : (s.withFb f).loadError = s.loadError := rfl
@[simp] theorem State.withFb_rnd (f : Framebuffer) : (s.withFb f).rnd = s.rnd := rfl
@[simp] theorem State.withFb_draws (f : Framebuffer) : (s.withFb f).draws = s.draws := rfl
@[simp] theorem State.withFb_pending (f : Framebuffer) : (s.withFb f).pending = s.pending := rfl
@[simp] theorem State.readV_withFb (f : Framebuffer) (r' : Reg) : (s.withFb f).readV r' = s.readV r' := rfl
@[simp] theorem State.readMem_withFb (f : Framebuffer) (a' : Nat) : (s.withFb f).readMem a' = s.readMem a' := rfl
@[simp] theorem State.halted_withFb (f : Framebuffer) : (s.withFb f).halted = s.halted := rfl

/-! ### `State.advance` -/

@[simp] theorem State.advance_v : (s.advance).v = s.v := rfl
@[simp] theorem State.advance_i : (s.advance).i = s.i := rfl
@[simp] theorem State.advance_pc : (s.advance).pc = s.pc + 2 := rfl
@[simp] theorem State.advance_sp : (s.advance).sp = s.sp := rfl
@[simp] theorem State.advance_stack : (s.advance).stack = s.stack := rfl
@[simp] theorem State.advance_dt : (s.advance).dt = s.dt := rfl
@[simp] theorem State.advance_st : (s.advance).st = s.st := rfl
@[simp] theorem State.advance_key : (s.advance).key = s.key := rfl
@[simp] theorem State.advance_fb : (s.advance).fb = s.fb := rfl
@[simp] theorem State.advance_mem : (s.advance).mem = s.mem := rfl
@[simp] theorem State.advance_cause : (s.advance).cause = s.cause := rfl
@[simp] theorem State.advance_faultPc : (s.advance).faultPc = s.faultPc := rfl
@[simp] theorem State.advance_faultWord : (s.advance).faultWord = s.faultWord := rfl
@[simp] theorem State.advance_keyWait : (s.advance).keyWait = false := rfl
@[simp] theorem State.advance_loadError : (s.advance).loadError = s.loadError := rfl
@[simp] theorem State.advance_rnd : (s.advance).rnd = s.rnd := rfl
@[simp] theorem State.advance_draws : (s.advance).draws = s.draws := rfl
@[simp] theorem State.advance_pending : (s.advance).pending = s.pending := rfl
@[simp] theorem State.readV_advance (r' : Reg) : (s.advance).readV r' = s.readV r' := rfl
@[simp] theorem State.readMem_advance (a' : Nat) : (s.advance).readMem a' = s.readMem a' := rfl
@[simp] theorem State.cell_advance (x' : Fin 64) (y' : Fin 32) : (s.advance).cell x' y' = s.cell x' y' := rfl
@[simp] theorem State.halted_advance : (s.advance).halted = s.halted := rfl

/-! ### `State.jump` -/

@[simp] theorem State.jump_v (a : Word) : (s.jump a).v = s.v := rfl
@[simp] theorem State.jump_i (a : Word) : (s.jump a).i = s.i := rfl
@[simp] theorem State.jump_pc (a : Word) : (s.jump a).pc = a := rfl
@[simp] theorem State.jump_sp (a : Word) : (s.jump a).sp = s.sp := rfl
@[simp] theorem State.jump_stack (a : Word) : (s.jump a).stack = s.stack := rfl
@[simp] theorem State.jump_dt (a : Word) : (s.jump a).dt = s.dt := rfl
@[simp] theorem State.jump_st (a : Word) : (s.jump a).st = s.st := rfl
@[simp] theorem State.jump_key (a : Word) : (s.jump a).key = s.key := rfl
@[simp] theorem State.jump_fb (a : Word) : (s.jump a).fb = s.fb := rfl
@[simp] theorem State.jump_mem (a : Word) : (s.jump a).mem = s.mem := rfl
@[simp] theorem State.jump_cause (a : Word) : (s.jump a).cause = s.cause := rfl
@[simp] theorem State.jump_faultPc (a : Word) : (s.jump a).faultPc = s.faultPc := rfl
@[simp] theorem State.jump_faultWord (a : Word) : (s.jump a).faultWord = s.faultWord := rfl
@[simp] theorem State.jump_keyWait (a : Word) : (s.jump a).keyWait = s.keyWait := rfl
@[simp] theorem State.jump_loadError (a : Word) : (s.jump a).loadError = s.loadError := rfl
@[simp] theorem State.jump_rnd (a : Word) : (s.jump a).rnd = s.rnd := rfl
@[simp] theorem State.jump_draws (a : Word) : (s.jump a).draws = s.draws := rfl
@[simp] theorem State.jump_pending (a : Word) : (s.jump a).pending = s.pending := rfl
@[simp] theorem State.readV_jump (a : Word) (r' : Reg) : (s.jump a).readV r' = s.readV r' := rfl
@[simp] theorem State.readMem_jump (a : Word) (a' : Nat) : (s.jump a).readMem a' = s.readMem a' := rfl
@[simp] theorem State.cell_jump (a : Word) (x' : Fin 64) (y' : Fin 32) : (s.jump a).cell x' y' = s.cell x' y' := rfl
@[simp] theorem State.halted_jump (a : Word) : (s.jump a).halted = s.halted := rfl

/-! ### `State.skip` -/

@[simp] theorem State.skip_v : (s.skip).v = s.v := rfl
@[simp] theorem State.skip_i : (s.skip).i = s.i := rfl
@[simp] theorem State.skip_pc : (s.skip).pc = s.pc + 2 := rfl
@[simp] theorem State.skip_sp : (s.skip).sp = s.sp := rfl
@[simp] theorem State.skip_stack : (s.skip).stack = s.stack := rfl
@[simp] theorem State.skip_dt : (s.skip).dt = s.dt := rfl
@[simp] theorem State.skip_st : (s.skip).st = s.st := rfl
@[simp] theorem State.skip_key : (s.skip).key = s.key := rfl
@[simp] theorem State.skip_fb : (s.skip).fb = s.fb := rfl
@[simp] theorem State.skip_mem : (s.skip).mem = s.mem := rfl
@[simp] theorem State.skip_cause : (s.skip).cause = s.cause := rfl
@[simp] theorem State.skip_faultPc : (s.skip).faultPc = s.faultPc := rfl
@[simp] theorem State.skip_faultWord : (s.skip).faultWord = s.faultWord := rfl
@[simp] theorem State.skip_keyWait : (s.skip).keyWait = s.keyWait := rfl
@[simp] theorem State.skip_loadError : (s.skip).loadError = s.loadError := rfl
@[simp] theorem State.skip_rnd : (s.skip).rnd = s.rnd := rfl
@[simp] theorem State.skip_draws : (s.skip).draws = s.draws := rfl
@[simp] theorem State.skip_pending : (s.skip).pending = s.pending := rfl
@[simp] theorem State.readV_skip (r' : Reg) : (s.skip).readV r' = s.readV r' := rfl
@[simp] theorem State.readMem_skip (a' : Nat) : (s.skip).readMem a' = s.readMem a' := rfl
@[simp] theorem State.cell_skip (x' : Fin 64) (y' : Fin 32) : (s.skip).cell x' y' = s.cell x' y' := rfl
@[simp] theorem State.halted_skip : (s.skip).halted = s.halted := rfl

/-! ### `State.waitForKey` -/

@[simp] theorem State.waitForKey_v : (s.waitForKey).v = s.v := rfl
@[simp] theorem State.waitForKey_i : (s.waitForKey).i = s.i := rfl
@[simp] theorem State.waitForKey_pc : (s.waitForKey).pc = s.pc := rfl
@[simp] theorem State.waitForKey_sp : (s.waitForKey).sp = s.sp := rfl
@[simp] theorem State.waitForKey_stack : (s.waitForKey).stack = s.stack := rfl
@[simp] theorem State.waitForKey_dt : (s.waitForKey).dt = s.dt := rfl
@[simp] theorem State.waitForKey_st : (s.waitForKey).st = s.st := rfl
@[simp] theorem State.waitForKey_key : (s.waitForKey).key = s.key := rfl
@[simp] theorem State.waitForKey_fb : (s.waitForKey).fb = s.fb := rfl
@[simp] theorem State.waitForKey_mem : (s.waitForKey).mem = s.mem := rfl
@[simp] theorem State.waitForKey_cause : (s.waitForKey).cause = s.cause := rfl
@[simp] theorem State.waitForKey_faultPc : (s.waitForKey).faultPc = s.faultPc := rfl
@[simp] theorem State.waitForKey_faultWord : (s.waitForKey).faultWord = s.faultWord := rfl
@[simp] theorem State.waitForKey_keyWait : (s.waitForKey).keyWait = true := rfl
@[simp] theorem State.waitForKey_loadError : (s.waitForKey).loadError = s.loadError := rfl
@[simp] theorem State.waitForKey_rnd : (s.waitForKey).rnd = s.rnd := rfl
@[simp] theorem State.waitForKey_draws : (s.waitForKey).draws = s.draws := rfl
@[simp] theorem State.waitForKey_pending : (s.waitForKey).pending = s.pending := rfl
@[simp] theorem State.readV_waitForKey (r' : Reg) : (s.waitForKey).readV r' = s.readV r' := rfl
@[simp] theorem State.readMem_waitForKey (a' : Nat) : (s.waitForKey).readMem a' = s.readMem a' := rfl
@[simp] theorem State.cell_waitForKey (x' : Fin 64) (y' : Fin 32) : (s.waitForKey).cell x' y' = s.cell x' y' := rfl
@[simp] theorem State.halted_waitForKey : (s.waitForKey).halted = s.halted := rfl

/-! ### `State.raise` -/

@[simp] theorem State.raise_v (c : Cause) (w : Word) : (s.raise c w).v = s.v := rfl
@[simp] theorem State.raise_i (c : Cause) (w : Word) : (s.raise c w).i = s.i := rfl
@[simp] theorem State.raise_pc (c : Cause) (w : Word) : (s.raise c w).pc = s.pc := rfl
@[simp] theorem State.raise_sp (c : Cause) (w : Word) : (s.raise c w).sp = s.sp := rfl
@[simp] theorem State.raise_stack (c : Cause) (w : Word) : (s.raise c w).stack = s.stack := rfl
@[simp] theorem State.raise_dt (c : Cause) (w : Word) : (s.raise c w).dt = s.dt := rfl
@[simp] theorem State.raise_st (c : Cause) (w : Word) : (s.raise c w).st = s.st := rfl
@[simp] theorem State.raise_key (c : Cause) (w : Word) : (s.raise c w).key = s.key := rfl
@[simp] theorem State.raise_fb (c : Cause) (w : Word) : (s.raise c w).fb = s.fb := rfl
@[simp] theorem State.raise_mem (c : Cause) (w : Word) : (s.raise c w).mem = s.mem := rfl
@[simp] theorem State.raise_cause (c : Cause) (w : Word) : (s.raise c w).cause = c.code := rfl
@[simp] theorem State.raise_faultPc (c : Cause) (w : Word) : (s.raise c w).faultPc = s.pc := rfl
@[simp] theorem State.raise_faultWord (c : Cause) (w : Word) : (s.raise c w).faultWord = w := rfl
@[simp] theorem State.raise_keyWait (c : Cause) (w : Word) : (s.raise c w).keyWait = s.keyWait := rfl
@[simp] theorem State.raise_loadError (c : Cause) (w : Word) : (s.raise c w).loadError = s.loadError := rfl
@[simp] theorem State.raise_rnd (c : Cause) (w : Word) : (s.raise c w).rnd = s.rnd := rfl
@[simp] theorem State.raise_draws (c : Cause) (w : Word) : (s.raise c w).draws = s.draws := rfl
@[simp] theorem State.raise_pending (c : Cause) (w : Word) : (s.raise c w).pending = s.pending := rfl
@[simp] theorem State.readV_raise (c : Cause) (w : Word) (r' : Reg) : (s.raise c w).readV r' = s.readV r' := rfl
@[simp] theorem State.readMem_raise (c : Cause) (w : Word) (a' : Nat) : (s.raise c w).readMem a' = s.readMem a' := rfl
@[simp] theorem State.cell_raise (c : Cause) (w : Word) (x' : Fin 64) (y' : Fin 32) : (s.raise c w).cell x' y' = s.cell x' y' := rfl

/-! ### `State.latchRnd` -/

@[simp] theorem State.latchRnd_v (r : Byte) : (s.latchRnd r).v = s.v := rfl
@[simp] theorem State.latchRnd_i (r : Byte) : (s.latchRnd r).i = s.i := rfl
@[simp] theorem State.latchRnd_pc (r : Byte) : (s.latchRnd r).pc = s.pc := rfl
@[simp] theorem State.latchRnd_sp (r : Byte) : (s.latchRnd r).sp = s.sp := rfl
@[simp] theorem State.latchRnd_stack (r : Byte) : (s.latchRnd r).stack = s.stack := rfl
@[simp] theorem State.latchRnd_dt (r : Byte) : (s.latchRnd r).dt = s.dt := rfl
@[simp] theorem State.latchRnd_st (r : Byte) : (s.latchRnd r).st = s.st := rfl
@[simp] theorem State.latchRnd_key (r : Byte) : (s.latchRnd r).key = s.key := rfl
@[simp] theorem State.latchRnd_fb (r : Byte) : (s.latchRnd r).fb = s.fb := rfl
@[simp] theorem State.latchRnd_mem (r : Byte) : (s.latchRnd r).mem = s.mem := rfl
@[simp] theorem State.latchRnd_cause (r : Byte) : (s.latchRnd r).cause = s.cause := rfl
@[simp] theorem State.latchRnd_faultPc (r : Byte) : (s.latchRnd r).faultPc = s.faultPc := rfl
@[simp] theorem State.latchRnd_faultWord (r : Byte) : (s.latchRnd r).faultWord = s.faultWord := rfl
@[simp] theorem State.latchRnd_keyWait (r : Byte) : (s.latchRnd r).keyWait = s.keyWait := rfl
@[simp] theorem State.latchRnd_loadError (r : Byte) : (s.latchRnd r).loadError = s.loadError := rfl
@[simp] theorem State.latchRnd_rnd (r : Byte) : (s.latchRnd r).rnd = r := rfl
@[simp] theorem State.latchRnd_draws (r : Byte) : (s.latchRnd r).draws = s.draws := rfl
@[simp] theorem State.latchRnd_pending (r : Byte) : (s.latchRnd r).pending = s.pending := rfl
@[simp] theorem State.readV_latchRnd (r : Byte) (r' : Reg) : (s.latchRnd r).readV r' = s.readV r' := rfl
@[simp] theorem State.readMem_latchRnd (r : Byte) (a' : Nat) : (s.latchRnd r).readMem a' = s.readMem a' := rfl
@[simp] theorem State.cell_latchRnd (r : Byte) (x' : Fin 64) (y' : Fin 32) : (s.latchRnd r).cell x' y' = s.cell x' y' := rfl
@[simp] theorem State.halted_latchRnd (r : Byte) : (s.latchRnd r).halted = s.halted := rfl

/-! ### `State.writeFlag` -/

@[simp] theorem State.writeFlag_v (f : Bool) : (s.writeFlag f).v = s.v.set Reg.vf.val (flagByte f) := rfl
@[simp] theorem State.writeFlag_i (f : Bool) : (s.writeFlag f).i = s.i := rfl
@[simp] theorem State.writeFlag_pc (f : Bool) : (s.writeFlag f).pc = s.pc := rfl
@[simp] theorem State.writeFlag_sp (f : Bool) : (s.writeFlag f).sp = s.sp := rfl
@[simp] theorem State.writeFlag_stack (f : Bool) : (s.writeFlag f).stack = s.stack := rfl
@[simp] theorem State.writeFlag_dt (f : Bool) : (s.writeFlag f).dt = s.dt := rfl
@[simp] theorem State.writeFlag_st (f : Bool) : (s.writeFlag f).st = s.st := rfl
@[simp] theorem State.writeFlag_key (f : Bool) : (s.writeFlag f).key = s.key := rfl
@[simp] theorem State.writeFlag_fb (f : Bool) : (s.writeFlag f).fb = s.fb := rfl
@[simp] theorem State.writeFlag_mem (f : Bool) : (s.writeFlag f).mem = s.mem := rfl
@[simp] theorem State.writeFlag_cause (f : Bool) : (s.writeFlag f).cause = s.cause := rfl
@[simp] theorem State.writeFlag_faultPc (f : Bool) : (s.writeFlag f).faultPc = s.faultPc := rfl
@[simp] theorem State.writeFlag_faultWord (f : Bool) : (s.writeFlag f).faultWord = s.faultWord := rfl
@[simp] theorem State.writeFlag_keyWait (f : Bool) : (s.writeFlag f).keyWait = s.keyWait := rfl
@[simp] theorem State.writeFlag_loadError (f : Bool) : (s.writeFlag f).loadError = s.loadError := rfl
@[simp] theorem State.writeFlag_rnd (f : Bool) : (s.writeFlag f).rnd = s.rnd := rfl
@[simp] theorem State.writeFlag_draws (f : Bool) : (s.writeFlag f).draws = s.draws := rfl
@[simp] theorem State.writeFlag_pending (f : Bool) : (s.writeFlag f).pending = s.pending := rfl
@[simp] theorem State.readMem_writeFlag (f : Bool) (a' : Nat) : (s.writeFlag f).readMem a' = s.readMem a' := rfl
@[simp] theorem State.cell_writeFlag (f : Bool) (x' : Fin 64) (y' : Fin 32) : (s.writeFlag f).cell x' y' = s.cell x' y' := rfl
@[simp] theorem State.halted_writeFlag (f : Bool) : (s.writeFlag f).halted = s.halted := rfl

/-! ### `State.writeAlu` -/

@[simp] theorem State.writeAlu_v (x : Reg) (b : Byte) (f : Bool) : (s.writeAlu x b f).v = (s.v.set x.val b).set Reg.vf.val (flagByte f) := rfl
@[simp] theorem State.writeAlu_i (x : Reg) (b : Byte) (f : Bool) : (s.writeAlu x b f).i = s.i := rfl
@[simp] theorem State.writeAlu_pc (x : Reg) (b : Byte) (f : Bool) : (s.writeAlu x b f).pc = s.pc + 2 := rfl
@[simp] theorem State.writeAlu_sp (x : Reg) (b : Byte) (f : Bool) : (s.writeAlu x b f).sp = s.sp := rfl
@[simp] theorem State.writeAlu_stack (x : Reg) (b : Byte) (f : Bool) : (s.writeAlu x b f).stack = s.stack := rfl
@[simp] theorem State.writeAlu_dt (x : Reg) (b : Byte) (f : Bool) : (s.writeAlu x b f).dt = s.dt := rfl
@[simp] theorem State.writeAlu_st (x : Reg) (b : Byte) (f : Bool) : (s.writeAlu x b f).st = s.st := rfl
@[simp] theorem State.writeAlu_key (x : Reg) (b : Byte) (f : Bool) : (s.writeAlu x b f).key = s.key := rfl
@[simp] theorem State.writeAlu_fb (x : Reg) (b : Byte) (f : Bool) : (s.writeAlu x b f).fb = s.fb := rfl
@[simp] theorem State.writeAlu_mem (x : Reg) (b : Byte) (f : Bool) : (s.writeAlu x b f).mem = s.mem := rfl
@[simp] theorem State.writeAlu_cause (x : Reg) (b : Byte) (f : Bool) : (s.writeAlu x b f).cause = s.cause := rfl
@[simp] theorem State.writeAlu_faultPc (x : Reg) (b : Byte) (f : Bool) : (s.writeAlu x b f).faultPc = s.faultPc := rfl
@[simp] theorem State.writeAlu_faultWord (x : Reg) (b : Byte) (f : Bool) : (s.writeAlu x b f).faultWord = s.faultWord := rfl
@[simp] theorem State.writeAlu_keyWait (x : Reg) (b : Byte) (f : Bool) : (s.writeAlu x b f).keyWait = false := rfl
@[simp] theorem State.writeAlu_loadError (x : Reg) (b : Byte) (f : Bool) : (s.writeAlu x b f).loadError = s.loadError := rfl
@[simp] theorem State.writeAlu_rnd (x : Reg) (b : Byte) (f : Bool) : (s.writeAlu x b f).rnd = s.rnd := rfl
@[simp] theorem State.writeAlu_draws (x : Reg) (b : Byte) (f : Bool) : (s.writeAlu x b f).draws = s.draws := rfl
@[simp] theorem State.writeAlu_pending (x : Reg) (b : Byte) (f : Bool) : (s.writeAlu x b f).pending = s.pending := rfl
@[simp] theorem State.readMem_writeAlu (x : Reg) (b : Byte) (f : Bool) (a' : Nat) : (s.writeAlu x b f).readMem a' = s.readMem a' := rfl
@[simp] theorem State.cell_writeAlu (x : Reg) (b : Byte) (f : Bool) (x' : Fin 64) (y' : Fin 32) : (s.writeAlu x b f).cell x' y' = s.cell x' y' := rfl
@[simp] theorem State.halted_writeAlu (x : Reg) (b : Byte) (f : Bool) : (s.writeAlu x b f).halted = s.halted := rfl

/-! ### `State.tick` -/

@[simp] theorem State.tick_v : (s.tick).v = s.v := rfl
@[simp] theorem State.tick_i : (s.tick).i = s.i := rfl
@[simp] theorem State.tick_pc : (s.tick).pc = s.pc := rfl
@[simp] theorem State.tick_sp : (s.tick).sp = s.sp := rfl
@[simp] theorem State.tick_stack : (s.tick).stack = s.stack := rfl
@[simp] theorem State.tick_dt : (s.tick).dt = tickTimer s.dt := rfl
@[simp] theorem State.tick_st : (s.tick).st = tickTimer s.st := rfl
@[simp] theorem State.tick_key : (s.tick).key = s.key := rfl
@[simp] theorem State.tick_fb : (s.tick).fb = s.fb := rfl
@[simp] theorem State.tick_mem : (s.tick).mem = s.mem := rfl
@[simp] theorem State.tick_cause : (s.tick).cause = s.cause := rfl
@[simp] theorem State.tick_faultPc : (s.tick).faultPc = s.faultPc := rfl
@[simp] theorem State.tick_faultWord : (s.tick).faultWord = s.faultWord := rfl
@[simp] theorem State.tick_keyWait : (s.tick).keyWait = s.keyWait := rfl
@[simp] theorem State.tick_loadError : (s.tick).loadError = s.loadError := rfl
@[simp] theorem State.tick_rnd : (s.tick).rnd = s.rnd := rfl
@[simp] theorem State.tick_draws : (s.tick).draws = s.draws := rfl
@[simp] theorem State.tick_pending : (s.tick).pending = s.pending := rfl
@[simp] theorem State.readV_tick (r' : Reg) : (s.tick).readV r' = s.readV r' := rfl
@[simp] theorem State.readMem_tick (a' : Nat) : (s.tick).readMem a' = s.readMem a' := rfl
@[simp] theorem State.cell_tick (x' : Fin 64) (y' : Fin 32) : (s.tick).cell x' y' = s.cell x' y' := rfl
@[simp] theorem State.halted_tick : (s.tick).halted = s.halted := rfl

/-! ### `State.setKey` -/

@[simp] theorem State.setKey_v (k : Fin 16) (p : Bool) : (s.setKey k p).v = s.v := rfl
@[simp] theorem State.setKey_i (k : Fin 16) (p : Bool) : (s.setKey k p).i = s.i := rfl
@[simp] theorem State.setKey_pc (k : Fin 16) (p : Bool) : (s.setKey k p).pc = s.pc := rfl
@[simp] theorem State.setKey_sp (k : Fin 16) (p : Bool) : (s.setKey k p).sp = s.sp := rfl
@[simp] theorem State.setKey_stack (k : Fin 16) (p : Bool) : (s.setKey k p).stack = s.stack := rfl
@[simp] theorem State.setKey_dt (k : Fin 16) (p : Bool) : (s.setKey k p).dt = s.dt := rfl
@[simp] theorem State.setKey_st (k : Fin 16) (p : Bool) : (s.setKey k p).st = s.st := rfl
@[simp] theorem State.setKey_key (k : Fin 16) (p : Bool) : (s.setKey k p).key = s.key.set k.val p := rfl
@[simp] theorem State.setKey_fb (k : Fin 16) (p : Bool) : (s.setKey k p).fb = s.fb := rfl
@[simp] theorem State.setKey_mem (k : Fin 16) (p : Bool) : (s.setKey k p).mem = s.mem := rfl
@[simp] theorem State.setKey_cause (k : Fin 16) (p : Bool) : (s.setKey k p).cause = s.cause := rfl
@[simp] theorem State.setKey_faultPc (k : Fin 16) (p : Bool) : (s.setKey k p).faultPc = s.faultPc := rfl
@[simp] theorem State.setKey_faultWord (k : Fin 16) (p : Bool) : (s.setKey k p).faultWord = s.faultWord := rfl
@[simp] theorem State.setKey_keyWait (k : Fin 16) (p : Bool) : (s.setKey k p).keyWait = s.keyWait := rfl
@[simp] theorem State.setKey_loadError (k : Fin 16) (p : Bool) : (s.setKey k p).loadError = s.loadError := rfl
@[simp] theorem State.setKey_rnd (k : Fin 16) (p : Bool) : (s.setKey k p).rnd = s.rnd := rfl
@[simp] theorem State.setKey_draws (k : Fin 16) (p : Bool) : (s.setKey k p).draws = s.draws := rfl
@[simp] theorem State.setKey_pending (k : Fin 16) (p : Bool) : (s.setKey k p).pending = s.pending := rfl
@[simp] theorem State.readV_setKey (k : Fin 16) (p : Bool) (r' : Reg) : (s.setKey k p).readV r' = s.readV r' := rfl
@[simp] theorem State.readMem_setKey (k : Fin 16) (p : Bool) (a' : Nat) : (s.setKey k p).readMem a' = s.readMem a' := rfl
@[simp] theorem State.cell_setKey (k : Fin 16) (p : Bool) (x' : Fin 64) (y' : Fin 32) : (s.setKey k p).cell x' y' = s.cell x' y' := rfl
@[simp] theorem State.halted_setKey (k : Fin 16) (p : Bool) : (s.setKey k p).halted = s.halted := rfl

/-! ### `State.skipIf` -/

@[simp] theorem State.skipIf_v (c : Bool) : (s.skipIf c).v = s.v := rfl
@[simp] theorem State.skipIf_i (c : Bool) : (s.skipIf c).i = s.i := rfl
@[simp] theorem State.skipIf_pc (c : Bool) : (s.skipIf c).pc = if c then s.pc + 2 else s.pc := rfl
@[simp] theorem State.skipIf_sp (c : Bool) : (s.skipIf c).sp = s.sp := rfl
@[simp] theorem State.skipIf_stack (c : Bool) : (s.skipIf c).stack = s.stack := rfl
@[simp] theorem State.skipIf_dt (c : Bool) : (s.skipIf c).dt = s.dt := rfl
@[simp] theorem State.skipIf_st (c : Bool) : (s.skipIf c).st = s.st := rfl
@[simp] theorem State.skipIf_key (c : Bool) : (s.skipIf c).key = s.key := rfl
@[simp] theorem State.skipIf_fb (c : Bool) : (s.skipIf c).fb = s.fb := rfl
@[simp] theorem State.skipIf_mem (c : Bool) : (s.skipIf c).mem = s.mem := rfl
@[simp] theorem State.skipIf_cause (c : Bool) : (s.skipIf c).cause = s.cause := rfl
@[simp] theorem State.skipIf_faultPc (c : Bool) : (s.skipIf c).faultPc = s.faultPc := rfl
@[simp] theorem State.skipIf_faultWord (c : Bool) : (s.skipIf c).faultWord = s.faultWord := rfl
@[simp] theorem State.skipIf_keyWait (c : Bool) : (s.skipIf c).keyWait = s.keyWait := rfl
@[simp] theorem State.skipIf_loadError (c : Bool) : (s.skipIf c).loadError = s.loadError := rfl
@[simp] theorem State.skipIf_rnd (c : Bool) : (s.skipIf c).rnd = s.rnd := rfl
@[simp] theorem State.skipIf_draws (c : Bool) : (s.skipIf c).draws = s.draws := rfl
@[simp] theorem State.skipIf_pending (c : Bool) : (s.skipIf c).pending = s.pending := rfl
@[simp] theorem State.readV_skipIf (c : Bool) (r' : Reg) : (s.skipIf c).readV r' = s.readV r' := rfl
@[simp] theorem State.readMem_skipIf (c : Bool) (a' : Nat) : (s.skipIf c).readMem a' = s.readMem a' := rfl
@[simp] theorem State.cell_skipIf (c : Bool) (x' : Fin 64) (y' : Fin 32) : (s.skipIf c).cell x' y' = s.cell x' y' := rfl
@[simp] theorem State.halted_skipIf (c : Bool) : (s.skipIf c).halted = s.halted := rfl

/-! ### `State.takeDraw` -/

@[simp] theorem State.takeDraw_v : (s.takeDraw).v = s.v := by unfold State.takeDraw; split <;> rfl
@[simp] theorem State.takeDraw_i : (s.takeDraw).i = s.i := by unfold State.takeDraw; split <;> rfl
@[simp] theorem State.takeDraw_pc : (s.takeDraw).pc = s.pc := by unfold State.takeDraw; split <;> rfl
@[simp] theorem State.takeDraw_sp : (s.takeDraw).sp = s.sp := by unfold State.takeDraw; split <;> rfl
@[simp] theorem State.takeDraw_stack : (s.takeDraw).stack = s.stack := by unfold State.takeDraw; split <;> rfl
@[simp] theorem State.takeDraw_dt : (s.takeDraw).dt = s.dt := by unfold State.takeDraw; split <;> rfl
@[simp] theorem State.takeDraw_st : (s.takeDraw).st = s.st := by unfold State.takeDraw; split <;> rfl
@[simp] theorem State.takeDraw_key : (s.takeDraw).key = s.key := by unfold State.takeDraw; split <;> rfl
@[simp] theorem State.takeDraw_fb : (s.takeDraw).fb = s.fb := by unfold State.takeDraw; split <;> rfl
@[simp] theorem State.takeDraw_mem : (s.takeDraw).mem = s.mem := by unfold State.takeDraw; split <;> rfl
@[simp] theorem State.takeDraw_cause : (s.takeDraw).cause = s.cause := by unfold State.takeDraw; split <;> rfl
@[simp] theorem State.takeDraw_faultPc : (s.takeDraw).faultPc = s.faultPc := by unfold State.takeDraw; split <;> rfl
@[simp] theorem State.takeDraw_faultWord : (s.takeDraw).faultWord = s.faultWord := by unfold State.takeDraw; split <;> rfl
@[simp] theorem State.takeDraw_keyWait : (s.takeDraw).keyWait = s.keyWait := by unfold State.takeDraw; split <;> rfl
@[simp] theorem State.takeDraw_loadError : (s.takeDraw).loadError = s.loadError := by unfold State.takeDraw; split <;> rfl
@[simp] theorem State.takeDraw_rnd : (s.takeDraw).rnd = s.rnd := by unfold State.takeDraw; split <;> rfl
@[simp] theorem State.takeDraw_draws : (s.takeDraw).draws = if s.halted then s.draws else s.draws + 1 := by unfold State.takeDraw; split <;> rfl
@[simp] theorem State.takeDraw_pending : (s.takeDraw).pending = s.pending := by unfold State.takeDraw; split <;> rfl
@[simp] theorem State.readV_takeDraw (r' : Reg) : (s.takeDraw).readV r' = s.readV r' := by simp [State.readV]
@[simp] theorem State.readMem_takeDraw (a' : Nat) : (s.takeDraw).readMem a' = s.readMem a' := by simp [State.readMem]
@[simp] theorem State.cell_takeDraw (x' : Fin 64) (y' : Fin 32) : (s.takeDraw).cell x' y' = s.cell x' y' := by simp [State.cell]

/-! ### `State.load` -/

@[simp] theorem State.load_v (bs : List Byte) : (s.load bs).v = s.v := by unfold State.load; split <;> simp [*]
@[simp] theorem State.load_i (bs : List Byte) : (s.load bs).i = s.i := by unfold State.load; split <;> simp [*]
@[simp] theorem State.load_pc (bs : List Byte) : (s.load bs).pc = s.pc := by unfold State.load; split <;> simp [*]
@[simp] theorem State.load_sp (bs : List Byte) : (s.load bs).sp = s.sp := by unfold State.load; split <;> simp [*]
@[simp] theorem State.load_stack (bs : List Byte) : (s.load bs).stack = s.stack := by unfold State.load; split <;> simp [*]
@[simp] theorem State.load_dt (bs : List Byte) : (s.load bs).dt = s.dt := by unfold State.load; split <;> simp [*]
@[simp] theorem State.load_st (bs : List Byte) : (s.load bs).st = s.st := by unfold State.load; split <;> simp [*]
@[simp] theorem State.load_key (bs : List Byte) : (s.load bs).key = s.key := by unfold State.load; split <;> simp [*]
@[simp] theorem State.load_fb (bs : List Byte) : (s.load bs).fb = s.fb := by unfold State.load; split <;> simp [*]
@[simp] theorem State.load_mem (bs : List Byte) : (s.load bs).mem = if 3584 < bs.length then s.mem else Memory.writeList 0x200 bs s.mem := by unfold State.load; split <;> simp [*]
@[simp] theorem State.load_cause (bs : List Byte) : (s.load bs).cause = s.cause := by unfold State.load; split <;> simp [*]
@[simp] theorem State.load_faultPc (bs : List Byte) : (s.load bs).faultPc = s.faultPc := by unfold State.load; split <;> simp [*]
@[simp] theorem State.load_faultWord (bs : List Byte) : (s.load bs).faultWord = s.faultWord := by unfold State.load; split <;> simp [*]
@[simp] theorem State.load_keyWait (bs : List Byte) : (s.load bs).keyWait = s.keyWait := by unfold State.load; split <;> simp [*]
@[simp] theorem State.load_loadError (bs : List Byte) : (s.load bs).loadError = decide (3584 < bs.length) := by unfold State.load; split <;> simp [*]
@[simp] theorem State.load_rnd (bs : List Byte) : (s.load bs).rnd = s.rnd := by unfold State.load; split <;> simp [*]
@[simp] theorem State.load_draws (bs : List Byte) : (s.load bs).draws = s.draws := by unfold State.load; split <;> simp [*]
@[simp] theorem State.load_pending (bs : List Byte) : (s.load bs).pending = s.pending := by unfold State.load; split <;> simp [*]
@[simp] theorem State.readV_load (bs : List Byte) (r' : Reg) : (s.load bs).readV r' = s.readV r' := by simp [State.readV]
@[simp] theorem State.cell_load (bs : List Byte) (x' : Fin 64) (y' : Fin 32) : (s.load bs).cell x' y' = s.cell x' y' := by simp [State.cell]
@[simp] theorem State.halted_load (bs : List Byte) : (s.load bs).halted = s.halted := by simp [State.halted]

end Sys2Proof.Machine
end

