-- ==== Sys2Proof/Laws/Memory.lean ====
section
/-! SUPPORT. The laws of memory: what a read gives after a write, and that every memory operation keeps the canonical form. -/

namespace Sys2Proof.Machine

/-! ### Reads after one write -/

theorem Memory.read_insert (a b : Nat) (v : Byte) (m : Memory) :
    Memory.read b (Memory.insert a v m) = if b = a then v else Memory.read b m := by
  induction m with
  | nil => simp [Memory.insert, Memory.read]
  | cons e rest ih =>
    obtain ⟨c, w⟩ := e
    simp only [Memory.insert]
    split
    · rfl
    · split
      · subst c; by_cases h : b = a <;> simp [Memory.read, h]
      · simp only [Memory.read, ih]; by_cases h : b = a <;> simp_all

theorem Memory.read_erase (a b : Nat) (m : Memory) :
    Memory.read b (Memory.erase a m) = if b = a then Memory.unlisted a else Memory.read b m := by
  induction m with
  | nil => simp only [Memory.erase, Memory.read]; split <;> simp_all
  | cons e rest ih =>
    obtain ⟨c, w⟩ := e
    simp only [Memory.erase]
    split
    · subst c; rw [ih]; by_cases h : b = a <;> simp [Memory.read, h]
    · simp only [Memory.read, ih]; by_cases h : b = a <;> simp_all

/-- A read gives the last value written to that address, and a write leaves every other address alone (R68, R72). -/
theorem Memory.read_write (a b : Nat) (v : Byte) (m : Memory) :
    Memory.read b (Memory.write a v m) = if b = a then v else Memory.read b m := by
  unfold Memory.write
  split
  · rw [Memory.read_erase]; simp_all
  · exact Memory.read_insert a b v m

@[simp] theorem Memory.read_write_same (a : Nat) (v : Byte) (m : Memory) :
    Memory.read a (Memory.write a v m) = v := by simp [Memory.read_write]

theorem Memory.read_write_other {a b : Nat} (h : b ≠ a) (v : Byte) (m : Memory) :
    Memory.read b (Memory.write a v m) = Memory.read b m := by simp [Memory.read_write, h]

/-! ### Reads after consecutive writes -/

theorem Memory.read_writeList (bs : List Byte) (a b : Nat) (m : Memory) :
    Memory.read b (Memory.writeList a bs m) =
      if h : a ≤ b ∧ b < a + bs.length then bs[b - a]'(by omega) else Memory.read b m := by
  induction bs generalizing a m with
  | nil => simp [Memory.writeList]
  | cons c cs ih =>
    rw [Memory.writeList, ih, Memory.read_write]
    by_cases h : b = a
    · subst b; simp
    · by_cases h' : a + 1 ≤ b ∧ b < a + 1 + cs.length
      · rw [dif_pos h', dif_pos (by simp; omega), List.getElem_cons]
        simp [show b - a ≠ 0 by omega, show b - a - 1 = b - (a + 1) by omega]
      · rw [dif_neg h', dif_neg (by simp; omega), if_neg h]

theorem State.ea_eq (s : State) (k : Nat) : s.ea k = s.i.toNat + k := rfl

/-- The bound check of R62 says that all `n` bytes from I up lie in memory. -/
theorem State.dataOutOfBounds_eq_false {s : State} {n : Nat} :
    s.dataOutOfBounds n = false ↔ n = 0 ∨ s.i.toNat + n ≤ 0x1000 := by
  have := s.ea_eq (n - 1)
  simp only [State.dataOutOfBounds, Bool.and_eq_false_iff, decide_eq_false_iff_not]; omega

theorem State.dataOutOfBounds_eq_true {s : State} {n : Nat} :
    s.dataOutOfBounds n = true ↔ 0 < n ∧ 0xFFF < s.i.toNat + (n - 1) := by
  have := s.ea_eq (n - 1)
  simp only [State.dataOutOfBounds, Bool.and_eq_true, decide_eq_true_eq]; omega

/-- The `n` bytes a register store writes, and no other (R174). -/
theorem State.read_storeRange (s : State) (n b : Nat) :
    Memory.read b (s.storeRange n) =
      if s.ea 0 ≤ b ∧ b < s.ea n then s.v.getD (b - s.ea 0) 0 else s.readMem b := by
  induction n with
  | zero => rw [if_neg (by omega)]; rfl
  | succ n ih =>
    have h0 := s.ea_eq 0
    have hn := s.ea_eq n
    have hn1 := s.ea_eq (n + 1)
    rw [State.storeRange, Memory.read_write, ih]
    by_cases h : b = s.ea n
    · rw [if_pos h, if_pos (by omega)]; congr 1; omega
    · rw [if_neg h]
      by_cases h' : s.ea 0 ≤ b ∧ b < s.ea n
      · rw [if_pos h', if_pos (by omega)]
      · rw [if_neg h', if_neg (by omega)]

/-! ### The canonical form -/

theorem Memory.wfFrom_mono {lo lo' : Nat} (h : lo' ≤ lo) {m : Memory} (hm : Memory.wfFrom lo m = true) :
    Memory.wfFrom lo' m = true := by
  cases m with
  | nil => rfl
  | cons e rest => simp only [Memory.wfFrom, Bool.and_eq_true, decide_eq_true_eq] at *; refine ⟨⟨⟨?_, hm.1.1.2⟩, hm.1.2⟩, hm.2⟩; omega

theorem Memory.wfFrom_insert {lo a : Nat} {v : Byte} {m : Memory} (hlo : lo ≤ a) (ha : a < 0x1000)
    (hv : v ≠ Memory.unlisted a) (hm : Memory.wfFrom lo m = true) : Memory.wfFrom lo (Memory.insert a v m) = true := by
  induction m generalizing lo with
  | nil => simp [Memory.insert, Memory.wfFrom, hlo, ha, hv]
  | cons e rest ih =>
    obtain ⟨c, w⟩ := e
    simp only [Memory.wfFrom, Bool.and_eq_true, decide_eq_true_eq] at hm
    obtain ⟨⟨⟨h1, h2⟩, h3⟩, h4⟩ := hm
    simp only [Memory.insert]
    split
    · simp only [Memory.wfFrom, Bool.and_eq_true, decide_eq_true_eq]
      exact ⟨⟨⟨hlo, ha⟩, hv⟩, ⟨⟨by omega, h2⟩, h3⟩, h4⟩
    · split
      · subst c
        simp only [Memory.wfFrom, Bool.and_eq_true, decide_eq_true_eq]
        exact ⟨⟨⟨hlo, ha⟩, hv⟩, h4⟩
      · simp only [Memory.wfFrom, Bool.and_eq_true, decide_eq_true_eq]
        exact ⟨⟨⟨h1, h2⟩, h3⟩, ih (by omega) h4⟩

theorem Memory.wfFrom_erase {lo a : Nat} {m : Memory} (hm : Memory.wfFrom lo m = true) :
    Memory.wfFrom lo (Memory.erase a m) = true := by
  induction m generalizing lo with
  | nil => rfl
  | cons e rest ih =>
    obtain ⟨c, w⟩ := e
    simp only [Memory.wfFrom, Bool.and_eq_true, decide_eq_true_eq] at hm
    obtain ⟨⟨⟨h1, h2⟩, h3⟩, h4⟩ := hm
    simp only [Memory.erase]
    split
    · exact Memory.wfFrom_mono (by omega) (ih h4)
    · simp only [Memory.wfFrom, Bool.and_eq_true, decide_eq_true_eq]
      exact ⟨⟨⟨h1, h2⟩, h3⟩, ih h4⟩

theorem Memory.wf_write {a : Nat} {v : Byte} {m : Memory} (ha : a < 0x1000) (hm : m.wf = true) :
    (Memory.write a v m).wf = true := by
  unfold Memory.write
  split
  · exact Memory.wfFrom_erase hm
  · exact Memory.wfFrom_insert (Nat.zero_le a) ha ‹_› hm

theorem Memory.wf_writeList {bs : List Byte} {a : Nat} {m : Memory} (h : a + bs.length ≤ 0x1000) (hm : m.wf = true) :
    (Memory.writeList a bs m).wf = true := by
  induction bs generalizing a m with
  | nil => exact hm
  | cons c cs ih =>
    simp only [List.length_cons] at h
    exact ih (by omega) (Memory.wf_write (by omega) hm)

theorem State.wf_storeRange {s : State} {n : Nat} (h : s.dataOutOfBounds n = false) (hm : s.mem.wf = true) :
    (s.storeRange n).wf = true := by
  induction n with
  | zero => exact hm
  | succ n ih =>
    rw [State.dataOutOfBounds_eq_false] at h
    exact Memory.wf_write (by rw [State.ea_eq]; omega) (ih (State.dataOutOfBounds_eq_false.mpr (by omega)))

theorem State.wf_reset : State.reset.mem.wf = true := rfl

end Sys2Proof.Machine
end

