-- ==== Sys2Proof/Laws/Ops.lean ====
section
/-! SUPPORT. One spec lemma for each shared operation over registers, stack, keys, fetch and faults: everything it can do. -/

namespace Sys2Proof.Machine

/-! ### Registers -/

/-- A write changes only its register, and a later read returns the written value (R21). -/
theorem State.readV_writeV (s : State) (r r' : Reg) (b : Byte) :
    (s.writeV r b).readV r' = if r' = r then b else s.readV r' := by
  simp only [State.readV, State.writeV_v, Vector.getElem_set]
  by_cases h : r' = r
  · simp [h]
  · rw [if_neg h, if_neg (fun e => h (Fin.ext e.symm))]

@[simp] theorem State.readV_writeV_same (s : State) (r : Reg) (b : Byte) : (s.writeV r b).readV r = b := by
  simp [State.readV_writeV]

theorem State.readV_writeV_other {s : State} {r r' : Reg} {b : Byte} (h : r' ≠ r) :
    (s.writeV r b).readV r' = s.readV r' := by simp [State.readV_writeV, h]

theorem State.readV_writeFlag (s : State) (f : Bool) (r : Reg) :
    (s.writeFlag f).readV r = if r = Reg.vf then flagByte f else s.readV r := State.readV_writeV ..

/-- The flag write comes second: VF ends as the flag, whatever the destination (R23, R140). -/
theorem State.readV_writeAlu (s : State) (x r : Reg) (b : Byte) (f : Bool) :
    (s.writeAlu x b f).readV r = if r = Reg.vf then flagByte f else if r = x then b else s.readV r := by
  rw [State.writeAlu, State.readV_writeFlag, State.readV_writeV]; rfl

/-- Registers below `n` come from memory, the others keep their value (R175). -/
theorem State.getElem_loadRange (s : State) (n k : Nat) (hk : k < 16) :
    (s.loadRange n)[k] = if k < n then s.readMem (s.ea k) else s.v[k] := by
  induction n with
  | zero => simp [State.loadRange]
  | succ n ih =>
    rw [State.loadRange, Vector.getElem_setIfInBounds, ih]
    by_cases h : n = k
    · subst n; simp
    · rw [if_neg h]; by_cases h' : k < n
      · rw [if_pos h', if_pos (by omega)]
      · rw [if_neg h', if_neg (by omega)]

/-! ### The stack -/

/-- Everything `push` can do (R32). -/
theorem State.push_cases (s : State) (a : Word) :
    (s.sp.val = 16 ∧ s.push a = none) ∨
    (∃ (h : s.sp.val < 16), s.push a = some
      { s with stack := s.stack.set s.sp.val a h, sp := ⟨s.sp.val + 1, by omega⟩ }) := by
  by_cases h : s.sp.val < 16
  · exact .inr ⟨h, by simp [State.push, h]⟩
  · exact .inl ⟨by omega, by simp [State.push, h]⟩

/-- Everything `pop` can do (R32). -/
theorem State.pop_cases (s : State) :
    (s.sp.val = 0 ∧ s.pop = none) ∨
    (∃ (_ : 0 < s.sp.val), s.pop = some (s.stack[s.sp.val - 1], { s with sp := ⟨s.sp.val - 1, by omega⟩ })) := by
  by_cases h : 0 < s.sp.val
  · exact .inr ⟨h, by simp [State.pop, h]⟩
  · exact .inl ⟨by omega, by simp [State.pop, h]⟩

/-- A push then a pop returns the pushed value and the stack pointer as it was (R32). -/
theorem State.pop_push {s t : State} {a : Word} (h : s.push a = some t) :
    t.pop = some (a, { t with sp := s.sp }) := by
  obtain ⟨-, h'⟩ | ⟨hlt, h'⟩ := s.push_cases a <;> rw [h'] at h <;> cases h
  simp [State.pop]

/-! ### Keys -/

/-- Everything `keyOf` can answer (R190). -/
theorem State.keyOf_cases (s : State) (x : Reg) :
    (0xF < (s.readV x).toNat ∧ s.keyOf x = none) ∨
    (∃ (h : (s.readV x).toNat < 16), s.keyOf x = some s.key[(s.readV x).toNat]) := by
  by_cases h : (s.readV x).toNat < 16
  · exact .inr ⟨h, by simp [State.keyOf, h]⟩
  · exact .inl ⟨by omega, by simp [State.keyOf, h]⟩

theorem scanKeys_eq_none {l : List Bool} {k : Nat} : scanKeys k l = none ↔ ∀ p ∈ l, p = false := by
  induction l generalizing k with
  | nil => simp [scanKeys]
  | cons p ps ih => cases p <;> simp [scanKeys, ih]

theorem scanKeys_eq_some {l : List Bool} {k n : Nat} :
    scanKeys k l = some n ↔ ∃ j, ∃ (h : j < l.length), n = k + j ∧ l[j] = true ∧ ∀ m (hm : m < j), l[m] = false := by
  induction l generalizing k with
  | nil => simp [scanKeys]
  | cons p ps ih =>
    cases p with
    | true =>
      simp only [scanKeys, if_true, Option.some.injEq]
      constructor
      · rintro rfl; exact ⟨0, by simp, by simp, by simp, by simp⟩
      · rintro ⟨j, hj, rfl, h1, h2⟩
        cases j with
        | zero => rfl
        | succ j => simpa using h2 0 (by omega)
    | false =>
      simp only [scanKeys, Bool.false_eq_true, if_false, ih]
      constructor
      · rintro ⟨j, hj, rfl, h1, h2⟩
        refine ⟨j + 1, by simp; omega, by omega, by simpa using h1, ?_⟩
        intro m hm
        cases m with
        | zero => rfl
        | succ m => simpa using h2 m (by omega)
      · rintro ⟨j, hj, rfl, h1, h2⟩
        cases j with
        | zero => simp at h1
        | succ j =>
          exact ⟨j, by simpa using hj, by omega, by simpa using h1, fun m hm => by simpa using h2 (m + 1) (by omega)⟩

/-- No key is pressed (R194). -/
theorem State.firstKey_eq_none (s : State) : s.firstKey = none ↔ ∀ k : Fin 16, s.key[k.val] = false := by
  rw [State.firstKey, scanKeys_eq_none]
  constructor
  · intro h k; exact h _ (by simp)
  · intro h p hp
    obtain ⟨j, hj, rfl⟩ := List.mem_iff_getElem.mp hp
    simpa using h ⟨j, by simpa using hj⟩

/-- The lowest pressed key (R194). -/
theorem State.firstKey_eq_some (s : State) (k : Fin 16) :
    s.firstKey = some k.val ↔ s.key[k.val] = true ∧ ∀ j : Fin 16, j < k → s.key[j.val] = false := by
  rw [State.firstKey, scanKeys_eq_some]
  constructor
  · rintro ⟨j, hj, he, h1, h2⟩
    obtain rfl : k.val = j := by omega
    exact ⟨by simpa using h1, fun m hm => by simpa using h2 m.val hm⟩
  · rintro ⟨h1, h2⟩
    exact ⟨k.val, by simp, by omega, by simpa using h1, fun m hm => by simpa using h2 ⟨m, by omega⟩ hm⟩

/-- The first pressed key is one of the 16. -/
theorem State.firstKey_lt {s : State} {k : Nat} (h : s.firstKey = some k) : k < 16 := by
  rw [State.firstKey, scanKeys_eq_some] at h
  obtain ⟨j, hj, rfl, -⟩ := h
  simpa using hj

/-! ### Fetch (R63, R220) -/

/-- Everything the fetch can do (R63). -/
theorem State.fetchWord_cases (s : State) :
    (0xFFF ≤ s.pc.toNat ∧ s.fetchWord = none) ∨
    (s.pc.toNat < 0xFFF ∧
      s.fetchWord = some (wordOfBytes (s.readMem s.pc.toNat) (s.readMem (s.pc.toNat + 1)))) := by
  by_cases h : s.pc.toNat < 0xFFF
  · exact .inr ⟨h, by simp [State.fetchWord, h]⟩
  · exact .inl ⟨by omega, by simp [State.fetchWord, h]⟩

/-- Everything fetch and decode can answer, in the order of the checks (R223). -/
theorem State.nextInstr_cases (s : State) :
    (0xFFF ≤ s.pc.toNat ∧ s.nextInstr = .error (.fetchOutOfBounds, 0)) ∨
    (∃ w, s.pc.toNat < 0xFFF ∧ s.fetchWord = some w ∧ decode w = none ∧
      s.nextInstr = .error (.unimplementedOpcode, w)) ∨
    (∃ w i, s.pc.toNat < 0xFFF ∧ s.fetchWord = some w ∧ decode w = some i ∧ s.nextInstr = .ok i) := by
  obtain ⟨h, hf⟩ | ⟨h, hf⟩ := s.fetchWord_cases
  · exact .inl ⟨h, by simp [State.nextInstr, hf]⟩
  · cases hd : decode (wordOfBytes (s.readMem s.pc.toNat) (s.readMem (s.pc.toNat + 1))) with
    | none => exact .inr (.inl ⟨_, h, hf, hd, by simp [State.nextInstr, hf, hd]⟩)
    | some i => exact .inr (.inr ⟨_, i, h, hf, hd, by simp [State.nextInstr, hf, hd]⟩)

/-- The fetch reads only `pc` and memory. -/
theorem State.nextInstr_congr {s t : State} (hp : t.pc = s.pc) (hm : t.mem = s.mem) : t.nextInstr = s.nextInstr := by
  simp only [State.nextInstr, State.fetchWord, State.readMem, hp, hm]

@[simp] theorem State.nextInstr_latchRnd (s : State) (r : Byte) : (s.latchRnd r).nextInstr = s.nextInstr := rfl

/-- A legal word in reach is the next instruction (R220). -/
theorem State.nextInstr_of_decode {s : State} {i : Instr} (hp : s.pc.toNat < 0xFFF)
    (hd : decode (wordOfBytes (s.readMem s.pc.toNat) (s.readMem (s.pc.toNat + 1))) = some i) : s.nextInstr = .ok i := by
  simp [State.nextInstr, State.fetchWord, hp, hd]

/-- An illegal word in reach (R96). -/
theorem State.nextInstr_of_illegal {s : State} (hp : s.pc.toNat < 0xFFF)
    (hd : decode (wordOfBytes (s.readMem s.pc.toNat) (s.readMem (s.pc.toNat + 1))) = none) :
    s.nextInstr = .error (.unimplementedOpcode, wordOfBytes (s.readMem s.pc.toNat) (s.readMem (s.pc.toNat + 1))) := by
  simp [State.nextInstr, State.fetchWord, hp, hd]

/-- A pc out of reach (R63). -/
theorem State.nextInstr_of_bound {s : State} (hp : 0xFFF ≤ s.pc.toNat) : s.nextInstr = .error (.fetchOutOfBounds, 0) := by
  simp [State.nextInstr, State.fetchWord, Nat.not_lt.mpr hp]

/-- Halted is a latched fault (R43). -/
theorem State.halted_eq_true {s : State} : s.halted = true ↔ s.cause ≠ 0 := bne_iff_ne

theorem State.halted_eq_false {s : State} : s.halted = false ↔ s.cause = 0 := by
  rw [← Bool.not_eq_true, State.halted_eq_true, not_not]

theorem stepCommand_halted {s : State} (h : s.cause ≠ 0) (r : Byte) : stepCommand r s = .next s := by
  rw [stepCommand, if_pos (State.halted_eq_true.mpr h)]

theorem stepCommand_fault {s : State} {c : Cause} {w : Word} (h : s.cause = 0) (hn : s.nextInstr = .error (c, w))
    (r : Byte) : stepCommand r s = .next ((s.latchRnd r).raise c w) := by
  rw [stepCommand, if_neg (by rw [State.halted_eq_false.mpr h]; decide), State.nextInstr_latchRnd, hn]

theorem stepCommand_instr {s : State} {i : Instr} (h : s.cause = 0) (hn : s.nextInstr = .ok i) (r : Byte) :
    stepCommand r s = exec i (s.latchRnd r) := by
  rw [stepCommand, if_neg (by rw [State.halted_eq_false.mpr h]; decide), State.nextInstr_latchRnd, hn]

/-- With no command pending the host is taken to issue STEP with a free draw. -/
theorem step_of_none {s : State} (h : s.pending = []) : step s = stepCommand (Config.freeDraw s.draws) s.takeDraw := by
  simp only [step, h]

/-- The first pending command is accepted (R51). -/
theorem step_of_pending {s : State} {c : Command} {rest : List Command} (h : s.pending = c :: rest) :
    step s = command c { s with pending := rest } := by
  simp only [step, h]

theorem State.takeDraw_running {s : State} (h : s.cause = 0) : s.takeDraw = { s with draws := s.draws + 1 } := by
  rw [State.takeDraw, if_neg (by rw [State.halted_eq_false.mpr h]; decide)]

/-- Everything STEP can do (R220): nothing while halted, a fault of the fetch or the decoder, or the instruction. -/
theorem stepCommand_cases (r : Byte) (s : State) :
    (s.halted = true ∧ stepCommand r s = .next s) ∨
    (s.halted = false ∧ ∃ c w, s.nextInstr = .error (c, w) ∧ stepCommand r s = .next ((s.latchRnd r).raise c w)) ∨
    (s.halted = false ∧ ∃ i, s.nextInstr = .ok i ∧ stepCommand r s = exec i (s.latchRnd r)) := by
  cases hh : s.halted with
  | true => exact .inl ⟨rfl, by simp [stepCommand, hh]⟩
  | false =>
    cases hn : s.nextInstr with
    | error e => exact .inr (.inl ⟨rfl, e.1, e.2, rfl, by simp [stepCommand, hh, hn]⟩)
    | ok i => exact .inr (.inr ⟨rfl, i, rfl, by simp [stepCommand, hh, hn]⟩)

/-! ### Timers (R200) -/

/-- A tick takes one off a timer, stopping at zero (R200). -/
theorem tickTimer_toNat (b : Byte) : (tickTimer b).toNat = b.toNat - 1 := by
  unfold tickTimer
  split
  · subst b; rfl
  · have h0 : b.toNat ≠ 0 := fun h => ‹¬ b = 0› (BitVec.eq_of_toNat_eq h)
    have := b.isLt
    rw [BitVec.toNat_sub, show (1 : Byte).toNat = 1 from rfl]; omega

end Sys2Proof.Machine
end

