-- ==== Sys2Proof/Laws/Draw.lean ====
section
/-! SUPPORT. What drawing does, cell by cell: the loops of 44_display.md R212 in closed form. -/

namespace Sys2Proof.Machine

theorem flipCell_line (x0 X : Nat) (hX : X < 64) (d : Line × Bool) :
    (flipCell x0 d).1[X] = (d.1[X] ^^ decide (x0 % 64 = X)) := by
  simp only [flipCell, Vector.getElem_set]
  by_cases h : x0 % 64 = X
  · subst h; simp
  · simp [h]

theorem flipCell_collision (x0 : Nat) (d : Line × Bool) :
    (flipCell x0 d).2 = (d.2 || d.1[x0 % 64]'(Nat.mod_lt _ (by decide))) := rfl

/-- The columns below `n` of a sprite row that land on cell `X` of the line (R211). -/
abbrev RowCovers (b : Byte) (x0 n X : Nat) : Prop :=
  ∃ c, c < n ∧ b.getLsbD (7 - c) = true ∧ (x0 + c) % 64 = X

theorem RowCovers_succ (b : Byte) (x0 n X : Nat) :
    RowCovers b x0 (n + 1) X ↔ RowCovers b x0 n X ∨ (b.getLsbD (7 - n) = true ∧ (x0 + n) % 64 = X) := by
  constructor
  · rintro ⟨c, hc, h⟩
    by_cases hn : c = n
    · subst hn; exact .inr h
    · exact .inl ⟨c, by omega, h⟩
  · rintro (⟨c, hc, h⟩ | h)
    · exact ⟨c, by omega, h⟩
    · exact ⟨n, by omega, h⟩

/-- No two columns of a row land on the same cell (R211). -/
theorem RowCovers_disjoint {b : Byte} {x0 n : Nat} (hn : n < 64) : ¬ RowCovers b x0 n ((x0 + n) % 64) := by
  rintro ⟨c, hc, -, h⟩; omega

theorem drawRow_succ_clear {b : Byte} {n : Nat} (hb : ¬ b.getLsbD (7 - n) = true) (x0 : Nat) (d : Line × Bool) :
    drawRow b x0 (n + 1) d = drawRow b x0 n d := if_neg hb

theorem drawRow_succ_set {b : Byte} {n : Nat} (hb : b.getLsbD (7 - n) = true) (x0 : Nat) (d : Line × Bool) :
    drawRow b x0 (n + 1) d = flipCell (x0 + n) (drawRow b x0 n d) := if_pos hb

/-- A row flips exactly the cells its set bits land on (R211, R212). -/
theorem drawRow_line (b : Byte) (x0 n X : Nat) (hn : n ≤ 8) (hX : X < 64) (d : Line × Bool) :
    (drawRow b x0 n d).1[X] = (d.1[X] ^^ decide (RowCovers b x0 n X)) := by
  induction n with
  | zero => rw [decide_eq_false (by rintro ⟨c, hc, -⟩; omega), Bool.xor_false]; rfl
  | succ n ih =>
    have ih := ih (by omega)
    by_cases hb : b.getLsbD (7 - n) = true
    case neg =>
      rw [drawRow_succ_clear hb, ih]; congr 1
      rw [decide_eq_decide, RowCovers_succ]
      exact ⟨.inl, fun o => o.elim id (fun a => absurd a.1 hb)⟩
    case pos =>
      rw [drawRow_succ_set hb, flipCell_line _ _ hX, ih]
      by_cases hx : (x0 + n) % 64 = X
      · subst hx
        have h1 := RowCovers_disjoint (b := b) (x0 := x0) (n := n) (by omega)
        have h2 : RowCovers b x0 (n + 1) ((x0 + n) % 64) := (RowCovers_succ ..).mpr (.inr ⟨hb, rfl⟩)
        rw [decide_eq_false h1, decide_eq_true h2]; simp
      · have h : RowCovers b x0 (n + 1) X ↔ RowCovers b x0 n X := by
          rw [RowCovers_succ]; exact ⟨fun o => o.elim id (fun a => absurd a.2 hx), .inl⟩
        simp only [h, hx]; simp

/-- A row collides exactly when one of its set bits lands on a lit cell (R212). -/
theorem drawRow_collision (b : Byte) (x0 n : Nat) (hn : n ≤ 8) (d : Line × Bool) :
    (drawRow b x0 n d).2 = true ↔
      d.2 = true ∨ ∃ X, ∃ (_ : X < 64), RowCovers b x0 n X ∧ d.1[X] = true := by
  induction n with
  | zero => simp [drawRow]
  | succ n ih =>
    have ih := ih (by omega)
    by_cases hb : b.getLsbD (7 - n) = true
    case neg => simp [drawRow_succ_clear hb, ih, RowCovers_succ, hb]
    case pos =>
      rw [drawRow_succ_set hb, flipCell_collision, Bool.or_eq_true, ih, drawRow_line _ _ _ _ (by omega),
        decide_eq_false (RowCovers_disjoint (by omega)), Bool.xor_false]
      constructor
      · rintro ((h | ⟨X, hX, hc, hl⟩) | h)
        · exact .inl h
        · exact .inr ⟨X, hX, (RowCovers_succ ..).mpr (.inl hc), hl⟩
        · exact .inr ⟨_, Nat.mod_lt _ (by decide), (RowCovers_succ ..).mpr (.inr ⟨hb, rfl⟩), h⟩
      · rintro (h | ⟨X, hX, hc, hl⟩)
        · exact .inl (.inl h)
        · rw [RowCovers_succ] at hc
          obtain hc | ⟨-, rfl⟩ := hc
          · exact .inl (.inr ⟨X, hX, hc, hl⟩)
          · exact .inr hl

theorem SpriteCovers_succ (s : State) (x0 y0 n X Y : Nat) :
    SpriteCovers s x0 y0 (n + 1) X Y ↔
      SpriteCovers s x0 y0 n X Y ∨ ((y0 + n) % 32 = Y ∧ RowCovers (s.readMem (s.ea n)) x0 8 X) := by
  constructor
  · rintro ⟨r, hr, c, hc, hb, hx, hy⟩
    by_cases hn : r = n
    · subst hn; exact .inr ⟨hy, c, hc, hb, hx⟩
    · exact .inl ⟨r, by omega, c, hc, hb, hx, hy⟩
  · rintro (⟨r, hr, h⟩ | ⟨hy, c, hc, hb, hx⟩)
    · exact ⟨r, by omega, h⟩
    · exact ⟨n, by omega, c, hc, hb, hx, hy⟩

/-- No two rows of a sprite land on the same line (R211). -/
theorem SpriteCovers_disjoint {s : State} {x0 y0 n X : Nat} (hn : n < 32) :
    ¬ SpriteCovers s x0 y0 n X ((y0 + n) % 32) := by
  rintro ⟨r, hr, c, -, -, -, h⟩; omega

/-- Drawing flips exactly the cells that the sprite covers (R211, R212). -/
theorem State.drawRows_cell (s : State) (x0 y0 n X Y : Nat) (hn : n ≤ 16) (hX : X < 64) (hY : Y < 32) :
    (s.drawRows x0 y0 n).1[Y][X] = (s.fb[Y][X] ^^ decide (SpriteCovers s x0 y0 n X Y)) := by
  induction n with
  | zero => rw [decide_eq_false (by rintro ⟨r, hr, -⟩; omega), Bool.xor_false]; rfl
  | succ n ih =>
    have ih := ih (by omega)
    simp only [State.drawRows, Vector.getElem_set]
    by_cases hy : (y0 + n) % 32 = Y
    · subst hy
      simp only [if_true]
      rw [drawRow_line _ _ _ _ (by omega) hX, ih, decide_eq_false (SpriteCovers_disjoint (by omega)), Bool.xor_false]
      congr 1
      rw [decide_eq_decide, SpriteCovers_succ]
      exact ⟨fun h => .inr ⟨rfl, h⟩, fun h => h.elim (fun h => absurd h (SpriteCovers_disjoint (by omega))) And.right⟩
    · simp only [hy, if_false]
      rw [ih]; congr 1
      rw [decide_eq_decide, SpriteCovers_succ]
      exact ⟨.inl, fun h => h.elim id (fun h => absurd h.1 hy)⟩

/-- Drawing collides exactly when the sprite covers a lit cell (R212). -/
theorem State.drawRows_collision (s : State) (x0 y0 n : Nat) (hn : n ≤ 16) :
    (s.drawRows x0 y0 n).2 = true ↔
      ∃ X Y, ∃ (_ : X < 64) (_ : Y < 32), SpriteCovers s x0 y0 n X Y ∧ s.fb[Y][X] = true := by
  induction n with
  | zero => simp [State.drawRows]
  | succ n ih =>
    have ih := ih (by omega)
    have hy : (y0 + n) % 32 < 32 := Nat.mod_lt _ (by decide)
    simp only [State.drawRows]
    rw [drawRow_collision _ _ _ (by omega), ih]
    have line : ∀ X (hX : X < 64), (s.drawRows x0 y0 n).1[(y0 + n) % 32][X] = s.fb[(y0 + n) % 32][X] := fun X hX => by
      rw [s.drawRows_cell _ _ _ _ _ (by omega) hX hy, decide_eq_false (SpriteCovers_disjoint (by omega)), Bool.xor_false]
    constructor
    · rintro (⟨X, Y, hX, hY, hc, hl⟩ | ⟨X, hX, hc, hl⟩)
      · exact ⟨X, Y, hX, hY, (SpriteCovers_succ ..).mpr (.inl hc), hl⟩
      · exact ⟨X, _, hX, hy, (SpriteCovers_succ ..).mpr (.inr ⟨rfl, hc⟩), by rw [← line X hX]; exact hl⟩
    · rintro ⟨X, Y, hX, hY, hc, hl⟩
      rw [SpriteCovers_succ] at hc
      obtain hc | ⟨rfl, hc⟩ := hc
      · exact .inl ⟨X, Y, hX, hY, hc, hl⟩
      · exact .inr ⟨X, hX, hc, by rw [line X hX]; exact hl⟩

end Sys2Proof.Machine
end

