-- ==== Sys2Proof/Laws/Exec.lean ====
section
/-! SUPPORT. Everything each branching meaning can do, with the condition of each branch in the spec's own terms. A meaning
without a branch is its own equation. -/

namespace Sys2Proof.Machine

theorem execRet_cases (s : State) :
    (s.sp.val = 0 ∧ execRet s = .next (s.raise .stackUnderflow (encode .ret))) ∨
    (∃ (_ : 0 < s.sp.val), execRet s =
      .next (State.jump s.stack[s.sp.val - 1] { s.advance with sp := ⟨s.sp.val - 1, by omega⟩ })) := by
  obtain ⟨h, hp⟩ | ⟨h, hp⟩ := s.advance.pop_cases
  · exact .inl ⟨h, by simp only [execRet, hp]⟩
  · exact .inr ⟨h, by simp only [execRet, hp]; rfl⟩

theorem execCall_cases (nnn : Addr) (s : State) :
    (s.sp.val = 16 ∧ execCall nnn s = .next (s.raise .stackOverflow (encode (.call nnn)))) ∨
    (∃ (h : s.sp.val < 16), execCall nnn s =
      .next (State.jump nnn.zext
        { s.advance with stack := s.stack.set s.sp.val (s.pc + 2) h, sp := ⟨s.sp.val + 1, by omega⟩ })) := by
  obtain ⟨h, hp⟩ | ⟨h, hp⟩ := s.advance.push_cases s.advance.pc
  · exact .inl ⟨h, by simp only [execCall, hp]⟩
  · exact .inr ⟨h, by simp only [execCall, hp]; rfl⟩

theorem execSkp_cases (x : Reg) (s : State) :
    (0xF < (s.readV x).toNat ∧ execSkp x s = .next (s.raise .keyIndexOutOfRange (encode (.skp x)))) ∨
    (∃ (h : (s.readV x).toNat < 16), execSkp x s = .next (s.advance.skipIf s.key[(s.readV x).toNat])) := by
  obtain ⟨h, hp⟩ | ⟨h, hp⟩ := s.keyOf_cases x
  · exact .inl ⟨h, by simp only [execSkp, hp]⟩
  · exact .inr ⟨h, by simp only [execSkp, hp]⟩

theorem execSknp_cases (x : Reg) (s : State) :
    (0xF < (s.readV x).toNat ∧ execSknp x s = .next (s.raise .keyIndexOutOfRange (encode (.sknp x)))) ∨
    (∃ (h : (s.readV x).toNat < 16), execSknp x s = .next (s.advance.skipIf (!s.key[(s.readV x).toNat]))) := by
  obtain ⟨h, hp⟩ | ⟨h, hp⟩ := s.keyOf_cases x
  · exact .inl ⟨h, by simp only [execSknp, hp]⟩
  · exact .inr ⟨h, by simp only [execSknp, hp]⟩

theorem execLdVxK_cases (x : Reg) (s : State) :
    ((∀ k : Fin 16, s.key[k.val] = false) ∧ execLdVxK x s = .next s.waitForKey) ∨
    (∃ k : Fin 16, (s.key[k.val] = true ∧ ∀ j : Fin 16, j < k → s.key[j.val] = false) ∧
      execLdVxK x s = .next (s.advance.writeV x (BitVec.ofNat 8 k.val))) := by
  cases h : s.firstKey with
  | none => exact .inl ⟨s.firstKey_eq_none.mp h, by simp only [execLdVxK, h]⟩
  | some k =>
    exact .inr ⟨⟨k, State.firstKey_lt h⟩, (s.firstKey_eq_some ⟨k, State.firstKey_lt h⟩).mp h, by simp only [execLdVxK, h]⟩

theorem execLdFWith_cases (p : FontOor) (x : Reg) (s : State) :
    ((0xF < (s.readV x).toNat ∧ p = .fault) ∧
      execLdFWith p x s = .next (s.raise .fontDigitOutOfRange (encode (.ldF x)))) ∨
    (¬ (0xF < (s.readV x).toNat ∧ p = .fault) ∧
      execLdFWith p x s = .next (s.advance.writeI (fontAddress (s.readV x)))) := by
  by_cases h : 0xF < (s.readV x).toNat ∧ p = .fault
  · exact .inl ⟨h, by simp only [execLdFWith, if_pos h]⟩
  · exact .inr ⟨h, by simp only [execLdFWith, if_neg h]⟩

theorem execLdB_cases (x : Reg) (s : State) :
    (0xFFF < s.i.toNat + 2 ∧ execLdB x s = .next (s.raise .dataOutOfBounds (encode (.ldB x)))) ∨
    (s.i.toNat + 2 ≤ 0xFFF ∧
      execLdB x s = .next (s.advance.withMem (Memory.writeList s.i.toNat (digits (s.readV x)) s.mem))) := by
  cases h : s.dataOutOfBounds 3 with
  | true => exact .inl ⟨by rw [State.dataOutOfBounds_eq_true] at h; omega, by simp only [execLdB, h, if_true]⟩
  | false =>
    exact .inr ⟨by rw [State.dataOutOfBounds_eq_false] at h; omega, by
      simp only [execLdB, h, Bool.false_eq_true, if_false]; rfl⟩

theorem execLdMemVxWith_cases (inc : Bool) (x : Reg) (s : State) :
    (0xFFF < s.i.toNat + x.val ∧ execLdMemVxWith inc x s = .next (s.raise .dataOutOfBounds (encode (.ldMemVx x)))) ∨
    (s.i.toNat + x.val ≤ 0xFFF ∧ execLdMemVxWith inc x s =
      .next ((s.advance.withMem (s.storeRange (x.val + 1))).writeI (s.rangeI inc x))) := by
  cases h : s.dataOutOfBounds (x.val + 1) with
  | true =>
    exact .inl ⟨by rw [State.dataOutOfBounds_eq_true] at h; omega, by simp only [execLdMemVxWith, h, if_true]⟩
  | false =>
    exact .inr ⟨by rw [State.dataOutOfBounds_eq_false] at h; omega, by
      simp only [execLdMemVxWith, h, Bool.false_eq_true, if_false]⟩

theorem execLdVxMemWith_cases (inc : Bool) (x : Reg) (s : State) :
    (0xFFF < s.i.toNat + x.val ∧ execLdVxMemWith inc x s = .next (s.raise .dataOutOfBounds (encode (.ldVxMem x)))) ∨
    (s.i.toNat + x.val ≤ 0xFFF ∧ execLdVxMemWith inc x s =
      .next ((s.advance.withV (s.loadRange (x.val + 1))).writeI (s.rangeI inc x))) := by
  cases h : s.dataOutOfBounds (x.val + 1) with
  | true =>
    exact .inl ⟨by rw [State.dataOutOfBounds_eq_true] at h; omega, by simp only [execLdVxMemWith, h, if_true]⟩
  | false =>
    exact .inr ⟨by rw [State.dataOutOfBounds_eq_false] at h; omega, by
      simp only [execLdVxMemWith, h, Bool.false_eq_true, if_false]⟩

theorem execDrw_cases (x y : Reg) (n : Fin 16) (s : State) :
    ((0 < n.val ∧ 0xFFF < s.i.toNat + (n.val - 1)) ∧
      execDrw x y n s = .next (s.raise .dataOutOfBounds (encode (.drw x y n)))) ∨
    ((n.val = 0 ∨ s.i.toNat + (n.val - 1) ≤ 0xFFF) ∧ execDrw x y n s =
      .next ((s.advance.withFb (s.drawRows (s.readV x).toNat (s.readV y).toNat n.val).1).writeFlag
        (s.drawRows (s.readV x).toNat (s.readV y).toNat n.val).2)) := by
  cases h : s.dataOutOfBounds n.val with
  | true => exact .inl ⟨by rw [State.dataOutOfBounds_eq_true] at h; omega, by simp only [execDrw, h, if_true]⟩
  | false =>
    exact .inr ⟨by rw [State.dataOutOfBounds_eq_false] at h; omega, by
      simp only [execDrw, h, Bool.false_eq_true, if_false]⟩

end Sys2Proof.Machine
end

