-- ==== Sys2Proof/Laws/PerInstr.lean ====
section
/-! SUPPORT. The per-instruction family `TableRow`: the word of each instruction selects the row of R95 that bears its
mnemonic. -/

namespace Sys2Proof.Laws.TableRow

/-- The instruction's word selects its own row of the opcode table (30_encoding.md R95). -/
def Statement (i : Instr) : Prop := ∃ r ∈ rows, r.mnemonic = i.mnemonic ∧ r.selects (encode i) = true

theorem ofNnn {m : String} {p : Word} {op : Nat} (h : op < 16) (hp : op * 0x1000 = p.toNat) (nnn : Addr) :
    Row.selects ⟨m, 0xF000#16, p⟩ (encodeNnn op nnn) = true :=
  (selects_F000 ..).mpr (by rw [opField_encodeNnn h]; exact hp)

theorem ofXkk {m : String} {p : Word} {op : Nat} (h : op < 16) (hp : op * 0x1000 = p.toNat) (x : Reg) (kk : Byte) :
    Row.selects ⟨m, 0xF000#16, p⟩ (encodeXkk op x kk) = true :=
  (selects_F000 ..).mpr (by rw [opField_encodeXkk h]; exact hp)

theorem ofX {m : String} {p : Word} {op : Nat} {kk : Byte} (h : op < 16) (hp : op * 0x1000 + kk.toNat = p.toNat)
    (x : Reg) : Row.selects ⟨m, 0xF0FF#16, p⟩ (encodeXkk op x kk) = true :=
  (selects_F0FF ..).mpr (by rw [opField_encodeXkk h, kkField_encodeXkk h]; exact hp)

theorem ofXy {m : String} {p : Word} {op : Nat} {n : Fin 16} (h : op < 16) (hp : op * 0x1000 + n.val = p.toNat)
    (x y : Reg) : Row.selects ⟨m, 0xF00F#16, p⟩ (encodeXyn op x y n) = true :=
  (selects_F00F ..).mpr (by rw [opField_encodeXyn h, nField_encodeXyn h]; exact hp)

theorem ofXyn {m : String} {p : Word} {op : Nat} (h : op < 16) (hp : op * 0x1000 = p.toNat) (x y : Reg) (n : Fin 16) :
    Row.selects ⟨m, 0xF000#16, p⟩ (encodeXyn op x y n) = true :=
  (selects_F000 ..).mpr (by rw [opField_encodeXyn h]; exact hp)

theorem cls : Statement (.cls) :=
  ⟨⟨"CLS", 0xFFFF#16, 0x00E0#16⟩, by decide, rfl, by decide⟩

theorem ret : Statement (.ret) :=
  ⟨⟨"RET", 0xFFFF#16, 0x00EE#16⟩, by decide, rfl, by decide⟩

theorem jp (nnn : Addr) : Statement (.jp nnn) :=
  ⟨⟨"JP", 0xF000#16, 0x1000#16⟩, by decide, rfl, ofNnn (by decide) (by decide) nnn⟩

theorem call (nnn : Addr) : Statement (.call nnn) :=
  ⟨⟨"CALL", 0xF000#16, 0x2000#16⟩, by decide, rfl, ofNnn (by decide) (by decide) nnn⟩

theorem seImm (x : Reg) (kk : Byte) : Statement (.seImm x kk) :=
  ⟨⟨"SE_imm", 0xF000#16, 0x3000#16⟩, by decide, rfl, ofXkk (by decide) (by decide) x kk⟩

theorem sneImm (x : Reg) (kk : Byte) : Statement (.sneImm x kk) :=
  ⟨⟨"SNE_imm", 0xF000#16, 0x4000#16⟩, by decide, rfl, ofXkk (by decide) (by decide) x kk⟩

theorem seReg (x y : Reg) : Statement (.seReg x y) :=
  ⟨⟨"SE_reg", 0xF00F#16, 0x5000#16⟩, by decide, rfl, ofXy (by decide) (by decide) x y⟩

theorem ldImm (x : Reg) (kk : Byte) : Statement (.ldImm x kk) :=
  ⟨⟨"LD_imm", 0xF000#16, 0x6000#16⟩, by decide, rfl, ofXkk (by decide) (by decide) x kk⟩

theorem addImm (x : Reg) (kk : Byte) : Statement (.addImm x kk) :=
  ⟨⟨"ADD_imm", 0xF000#16, 0x7000#16⟩, by decide, rfl, ofXkk (by decide) (by decide) x kk⟩

theorem ldReg (x y : Reg) : Statement (.ldReg x y) :=
  ⟨⟨"LD_reg", 0xF00F#16, 0x8000#16⟩, by decide, rfl, ofXy (by decide) (by decide) x y⟩

theorem orReg (x y : Reg) : Statement (.orReg x y) :=
  ⟨⟨"OR", 0xF00F#16, 0x8001#16⟩, by decide, rfl, ofXy (by decide) (by decide) x y⟩

theorem andReg (x y : Reg) : Statement (.andReg x y) :=
  ⟨⟨"AND", 0xF00F#16, 0x8002#16⟩, by decide, rfl, ofXy (by decide) (by decide) x y⟩

theorem xorReg (x y : Reg) : Statement (.xorReg x y) :=
  ⟨⟨"XOR", 0xF00F#16, 0x8003#16⟩, by decide, rfl, ofXy (by decide) (by decide) x y⟩

theorem addReg (x y : Reg) : Statement (.addReg x y) :=
  ⟨⟨"ADD_reg", 0xF00F#16, 0x8004#16⟩, by decide, rfl, ofXy (by decide) (by decide) x y⟩

theorem sub (x y : Reg) : Statement (.sub x y) :=
  ⟨⟨"SUB", 0xF00F#16, 0x8005#16⟩, by decide, rfl, ofXy (by decide) (by decide) x y⟩

theorem shr (x y : Reg) : Statement (.shr x y) :=
  ⟨⟨"SHR", 0xF00F#16, 0x8006#16⟩, by decide, rfl, ofXy (by decide) (by decide) x y⟩

theorem subn (x y : Reg) : Statement (.subn x y) :=
  ⟨⟨"SUBN", 0xF00F#16, 0x8007#16⟩, by decide, rfl, ofXy (by decide) (by decide) x y⟩

theorem shl (x y : Reg) : Statement (.shl x y) :=
  ⟨⟨"SHL", 0xF00F#16, 0x800E#16⟩, by decide, rfl, ofXy (by decide) (by decide) x y⟩

theorem sneReg (x y : Reg) : Statement (.sneReg x y) :=
  ⟨⟨"SNE_reg", 0xF00F#16, 0x9000#16⟩, by decide, rfl, ofXy (by decide) (by decide) x y⟩

theorem ldI (nnn : Addr) : Statement (.ldI nnn) :=
  ⟨⟨"LD_I", 0xF000#16, 0xA000#16⟩, by decide, rfl, ofNnn (by decide) (by decide) nnn⟩

theorem jpV0 (nnn : Addr) : Statement (.jpV0 nnn) :=
  ⟨⟨"JP_V0", 0xF000#16, 0xB000#16⟩, by decide, rfl, ofNnn (by decide) (by decide) nnn⟩

theorem rnd (x : Reg) (kk : Byte) : Statement (.rnd x kk) :=
  ⟨⟨"RND", 0xF000#16, 0xC000#16⟩, by decide, rfl, ofXkk (by decide) (by decide) x kk⟩

theorem drw (x y : Reg) (n : Fin 16) : Statement (.drw x y n) :=
  ⟨⟨"DRW", 0xF000#16, 0xD000#16⟩, by decide, rfl, ofXyn (by decide) (by decide) x y n⟩

theorem skp (x : Reg) : Statement (.skp x) :=
  ⟨⟨"SKP", 0xF0FF#16, 0xE09E#16⟩, by decide, rfl, ofX (by decide) (by decide) x⟩

theorem sknp (x : Reg) : Statement (.sknp x) :=
  ⟨⟨"SKNP", 0xF0FF#16, 0xE0A1#16⟩, by decide, rfl, ofX (by decide) (by decide) x⟩

theorem ldVxDt (x : Reg) : Statement (.ldVxDt x) :=
  ⟨⟨"LD_Vx_DT", 0xF0FF#16, 0xF007#16⟩, by decide, rfl, ofX (by decide) (by decide) x⟩

theorem ldVxK (x : Reg) : Statement (.ldVxK x) :=
  ⟨⟨"LD_Vx_K", 0xF0FF#16, 0xF00A#16⟩, by decide, rfl, ofX (by decide) (by decide) x⟩

theorem ldDtVx (x : Reg) : Statement (.ldDtVx x) :=
  ⟨⟨"LD_DT_Vx", 0xF0FF#16, 0xF015#16⟩, by decide, rfl, ofX (by decide) (by decide) x⟩

theorem ldStVx (x : Reg) : Statement (.ldStVx x) :=
  ⟨⟨"LD_ST_Vx", 0xF0FF#16, 0xF018#16⟩, by decide, rfl, ofX (by decide) (by decide) x⟩

theorem addI (x : Reg) : Statement (.addI x) :=
  ⟨⟨"ADD_I", 0xF0FF#16, 0xF01E#16⟩, by decide, rfl, ofX (by decide) (by decide) x⟩

theorem ldF (x : Reg) : Statement (.ldF x) :=
  ⟨⟨"LD_F", 0xF0FF#16, 0xF029#16⟩, by decide, rfl, ofX (by decide) (by decide) x⟩

theorem ldB (x : Reg) : Statement (.ldB x) :=
  ⟨⟨"LD_B", 0xF0FF#16, 0xF033#16⟩, by decide, rfl, ofX (by decide) (by decide) x⟩

theorem ldMemVx (x : Reg) : Statement (.ldMemVx x) :=
  ⟨⟨"LD_mem_Vx", 0xF0FF#16, 0xF055#16⟩, by decide, rfl, ofX (by decide) (by decide) x⟩

theorem ldVxMem (x : Reg) : Statement (.ldVxMem x) :=
  ⟨⟨"LD_Vx_mem", 0xF0FF#16, 0xF065#16⟩, by decide, rfl, ofX (by decide) (by decide) x⟩

end Sys2Proof.Laws.TableRow
end

