-- ==== Sys2Proof/Laws/Run.lean ====
section
/-! SUPPORT. What a run, a STEP boundary and the end of a run say (R270), for proofs that do not unfold them. -/

namespace Sys2Proof.Machine

@[simp] theorem run_zero (s : State) : Sys2Proof.core.run 0 s = .next s := rfl

/-- A run of `k + 1` steps that goes on is a step and then a run of `k`. -/
theorem run_succ_of_next {s t : State} (h : step s = .next t) (k : Nat) :
    Sys2Proof.core.run (k + 1) s = Sys2Proof.core.run k t := by
  simp only [Host.Core.run, Sys2Proof.core, h]

theorem State.nextIsStep_of_none {s : State} (h : s.pending = []) : s.nextIsStep = true := by
  simp only [State.nextIsStep, h]

theorem State.nextIsStep_of_step {s : State} {r : Byte} {rest : List Command} (h : s.pending = .step r :: rest) :
    s.nextIsStep = true := by
  simp only [State.nextIsStep, h]

/-- A state is not final exactly when no fault is latched and it is not at the halt loop. -/
theorem State.final_eq_false {s : State} : s.final = false ↔ s.cause = 0 ∧ s.atHaltLoop = false := by
  rw [State.final, Bool.or_eq_false_iff, State.halted_eq_false]

/-- After `k` steps a run is at one state. -/
theorem StepBoundary.unique {k : Nat} {s t u : State} (ht : StepBoundary k s t) (hu : StepBoundary k s u) : u = t := by
  have h := ht.1.symm.trans hu.1
  injection h with h
  exact h.symm

/-- The start of a run is a STEP boundary exactly when a STEP comes next. -/
theorem stepBoundary_zero {s t : State} : StepBoundary 0 s t ↔ t = s ∧ s.nextIsStep = true := by
  constructor
  · rintro ⟨h, hn⟩
    cases h
    exact ⟨rfl, hn.resolve_right fun ⟨_, _, hk, _⟩ => nomatch hk⟩
  · rintro ⟨rfl, h⟩
    exact ⟨rfl, .inl h⟩

/-- A run that starts at a final state with a STEP next has ended there. -/
theorem endsAt_zero {s : State} (hn : s.nextIsStep = true) (hf : s.final = true) : EndsAt 0 s s :=
  ⟨stepBoundary_zero.mpr ⟨rfl, hn⟩, hf, fun _ _ h => absurd h (Nat.not_lt_zero _)⟩

end Sys2Proof.Machine
end

