-- ==== Sys2Proof/Tests/Slice0.lean ====
section
/-! SUPPORT. The model's own tests: ill-formed words are refused; a word written out from R95 for every constructor decodes to
it; one step of each instruction gives what 95_test_vectors.md (or the rule's own example) expects; and for every obligation
with hypotheses a state and operands that meet them, at the edges of their ranges. -/

namespace Sys2Proof.Tests

open Sys2Proof Sys2Proof.Machine

/-- A state after RESET with bytes placed from 0x200, registers, and I. -/
def boot (bytes : List Byte) (regs : List (Reg × Byte) := []) (i : Word := 0) : State :=
  { State.reset with
    mem := Memory.writeList 0x200 bytes []
    v := regs.foldl (fun v p => v.set p.1.val p.2) State.reset.v
    i := i }

/-- What `f` reads from the next state, if there is one. -/
def seen {α : Type} (o : Result) (f : State → α) : Option α :=
  match o with
  | .next t => some (f t)
  | .fault _ | .refused _ => none

/-- What `f` reads after STEP(0xA7) at the state. -/
def stepped {α : Type} (s : State) (f : State → α) : Option α := seen (command (.step 0xA7) s) f

/-- Two registers of a state. -/
def two (x y : Reg) (t : State) : Byte × Byte := (t.readV x, t.readV y)

/-- The fault latch and the pc. -/
def latch (t : State) : Nat × Word × Word × Word := (t.cause.toNat, t.faultPc, t.faultWord, t.pc)

/-! ### WellFormed: a word of each illegal class of R96 is refused, and 0x0000 (R97) -/

theorem test_refuses_zero : wellFormedWord 0x0000 = false := by decide
theorem test_refuses_sys : wellFormedWord 0x0123 = false := by decide
theorem test_refuses_00E1 : wellFormedWord 0x00E1 = false := by decide
theorem test_refuses_5xy1 : wellFormedWord 0x5121 = false := by decide
theorem test_refuses_8xy8 : wellFormedWord 0x8128 = false := by decide
theorem test_refuses_8xyF : wellFormedWord 0x812F = false := by decide
theorem test_refuses_9xy1 : wellFormedWord 0x9AB1 = false := by decide
theorem test_refuses_Ex9F : wellFormedWord 0xE19F = false := by decide
theorem test_refuses_Fx66 : wellFormedWord 0xF166 = false := by decide
theorem test_rows_accept : wellFormedWord 0xD125 = true ∧ wellFormedWord 0xF165 = true := by decide

/-! ### Decode: the words are written bit by bit from the patterns of R95 and the fields of R91 -/

theorem test_decode_cls : decode 0b0000_0000_1110_0000 = some .cls := by decide
theorem test_decode_ret : decode 0b0000_0000_1110_1110 = some .ret := by decide
theorem test_decode_jp : decode 0b0001_0010_0011_0100 = some (.jp 0x234) := by decide
theorem test_decode_call : decode 0b0010_0010_0001_0000 = some (.call 0x210) := by decide
theorem test_decode_seImm : decode 0b0011_0011_0001_0000 = some (.seImm 3 0x10) := by decide
theorem test_decode_sneImm : decode 0b0100_0011_0001_0000 = some (.sneImm 3 0x10) := by decide
theorem test_decode_seReg : decode 0b0101_0001_0010_0000 = some (.seReg 1 2) := by decide
theorem test_decode_ldImm : decode 0b0110_1010_0111_1011 = some (.ldImm 0xA 0x7B) := by decide
theorem test_decode_addImm : decode 0b0111_0001_0000_0010 = some (.addImm 1 0x02) := by decide
theorem test_decode_ldReg : decode 0b1000_0001_0010_0000 = some (.ldReg 1 2) := by decide
theorem test_decode_or : decode 0b1000_0001_0010_0001 = some (.orReg 1 2) := by decide
theorem test_decode_and : decode 0b1000_0001_0010_0010 = some (.andReg 1 2) := by decide
theorem test_decode_xor : decode 0b1000_0001_0010_0011 = some (.xorReg 1 2) := by decide
theorem test_decode_addReg : decode 0b1000_0000_0001_0100 = some (.addReg 0 1) := by decide
theorem test_decode_sub : decode 0b1000_0000_0001_0101 = some (.sub 0 1) := by decide
theorem test_decode_shr : decode 0b1000_0001_0010_0110 = some (.shr 1 2) := by decide
theorem test_decode_subn : decode 0b1000_0001_0010_0111 = some (.subn 1 2) := by decide
theorem test_decode_shl : decode 0b1000_0001_0010_1110 = some (.shl 1 2) := by decide
theorem test_decode_sneReg : decode 0b1001_1010_1011_0000 = some (.sneReg 0xA 0xB) := by decide
theorem test_decode_ldI : decode 0b1010_0011_0000_0000 = some (.ldI 0x300) := by decide
theorem test_decode_jpV0 : decode 0b1011_0011_0000_0000 = some (.jpV0 0x300) := by decide
theorem test_decode_rnd : decode 0b1100_0011_0000_1111 = some (.rnd 3 0x0F) := by decide
theorem test_decode_drw : decode 0b1101_0001_0010_0101 = some (.drw 1 2 5) := by decide
theorem test_decode_skp : decode 0b1110_0101_1001_1110 = some (.skp 5) := by decide
theorem test_decode_sknp : decode 0b1110_0101_1010_0001 = some (.sknp 5) := by decide
theorem test_decode_ldVxDt : decode 0b1111_0011_0000_0111 = some (.ldVxDt 3) := by decide
theorem test_decode_ldVxK : decode 0b1111_0010_0000_1010 = some (.ldVxK 2) := by decide
theorem test_decode_ldDtVx : decode 0b1111_0100_0001_0101 = some (.ldDtVx 4) := by decide
theorem test_decode_ldStVx : decode 0b1111_0001_0001_1000 = some (.ldStVx 1) := by decide
theorem test_decode_addI : decode 0b1111_0010_0001_1110 = some (.addI 2) := by decide
theorem test_decode_ldF : decode 0b1111_1010_0010_1001 = some (.ldF 0xA) := by decide
theorem test_decode_ldB : decode 0b1111_1010_0011_0011 = some (.ldB 0xA) := by decide
theorem test_decode_ldMemVx : decode 0b1111_0001_0101_0101 = some (.ldMemVx 1) := by decide
theorem test_decode_ldVxMem : decode 0b1111_0001_0110_0101 = some (.ldVxMem 1) := by decide

/-- The bytes of a word stand high byte first, and the rest is left (R64, R90). -/
theorem test_decodeBytes : decodeBytes [0xD1, 0x25, 0x77] = .ok (.drw 1 2 5, [0x77]) := by decide
theorem test_decodeBytes_truncated : decodeBytes [0xD1] = .error .truncated := by decide
theorem test_table_word : decodeTableWord 16 0x8014 = some (.addReg 0 1) := by decide

/-! ### One step of each instruction. Expected values: the vectors of 95_test_vectors.md (S1 to S12, 2.2 to 2.7) and the
examples of the rules. -/

theorem test_cls : stepped { boot [0x00, 0xE0] with fb := Vector.replicate 32 (Vector.replicate 64 true) }
    (fun t => (t.cell 0 0, t.cell 63 31, t.pc)) = some (false, false, 0x202) := by decide

theorem test_ret : stepped { boot [0x00, 0xEE] with sp := 1, stack := State.reset.stack.set 0 0x206 }
    (fun t => (t.sp, t.pc)) = some (0, 0x206) := by decide
theorem test_ret_underflow : stepped (boot [0x00, 0xEE]) latch = some (5, 0x200, 0x00EE, 0x200) := by decide

theorem test_jp : stepped (boot [0x12, 0x34]) (·.pc) = some 0x234 := by decide
theorem test_jp_odd : stepped (boot [0x12, 0x01]) (·.pc) = some 0x201 := by decide

theorem test_call : stepped (boot [0x22, 0x10]) (fun t => (t.stack[0], t.sp, t.pc)) = some (0x202, 1, 0x210) := by decide
theorem test_call_overflow : stepped { boot [0x22, 0x10] with sp := 16 } (fun t => (latch t, t.sp)) =
    some ((4, 0x200, 0x2210, 0x200), 16) := by decide

theorem test_seImm_taken : stepped (boot [0x33, 0x10] [(3, 0x10)]) (·.pc) = some 0x204 := by decide
theorem test_seImm_not : stepped (boot [0x33, 0x10] [(3, 0x11)]) (·.pc) = some 0x202 := by decide
theorem test_sneImm_taken : stepped (boot [0x43, 0x10] [(3, 0x11)]) (·.pc) = some 0x204 := by decide
theorem test_sneImm_not : stepped (boot [0x43, 0x10] [(3, 0x10)]) (·.pc) = some 0x202 := by decide
theorem test_seReg_taken : stepped (boot [0x51, 0x20] [(1, 7), (2, 7)]) (·.pc) = some 0x204 := by decide
theorem test_seReg_not : stepped (boot [0x51, 0x20] [(1, 7), (2, 8)]) (·.pc) = some 0x202 := by decide
theorem test_sneReg_taken : stepped (boot [0x91, 0x20] [(1, 7), (2, 8)]) (·.pc) = some 0x204 := by decide
theorem test_sneReg_same : stepped (boot [0x91, 0x10] [(1, 7)]) (·.pc) = some 0x202 := by decide
theorem test_jpV0 : stepped (boot [0xB3, 0x00] [(0, 0x04), (3, 0x70)]) (·.pc) = some 0x304 := by decide
theorem test_jpV0_above : stepped (boot [0xBF, 0xFF] [(0, 0xFF)]) (·.pc) = some 0x10FE := by decide

theorem test_ldImm : stepped (boot [0x6A, 0x7B]) (two 0xA 0xF) = some (0x7B, 0) := by decide
theorem test_addImm : stepped (boot [0x71, 0x02] [(1, 0xFF), (0xF, 0x55)]) (two 1 0xF) = some (0x01, 0x55) := by decide
theorem test_addImm_vf : stepped (boot [0x7F, 0x01] [(0xF, 0xFF)]) (·.readV 0xF) = some 0 := by decide
theorem test_ldReg : stepped (boot [0x81, 0x20] [(1, 0x11), (2, 0x55)]) (two 1 2) = some (0x55, 0x55) := by decide
theorem test_or : stepped (boot [0x81, 0x21] [(1, 0xF0), (2, 0x0F), (0xF, 0x77)]) (two 1 0xF) = some (0xFF, 0x77) := by decide
theorem test_and : stepped (boot [0x81, 0x22] [(1, 0xF0), (2, 0x3C)]) (two 1 2) = some (0x30, 0x3C) := by decide
theorem test_xor : stepped (boot [0x81, 0x23] [(1, 0xF0), (2, 0x3C)]) (two 1 2) = some (0xCC, 0x3C) := by decide
theorem test_addReg : stepped (boot [0x80, 0x14] [(0, 0xFA), (1, 0x0A)]) (two 0 0xF) = some (0x04, 1) := by decide
theorem test_addReg_vf : stepped (boot [0x8F, 0x14] [(0xF, 0xFF), (1, 0x01)]) (·.readV 0xF) = some 1 := by decide
theorem test_sub : stepped (boot [0x80, 0x15] [(0, 5), (1, 10)]) (two 0 0xF) = some (0xFB, 0) := by decide
theorem test_sub_equal : stepped (boot [0x80, 0x15] [(0, 7), (1, 7)]) (two 0 0xF) = some (0, 1) := by decide
theorem test_shr : stepped (boot [0x81, 0x06] [(0, 0xFF), (1, 0x05)]) (two 1 0xF) = some (0x02, 1) := by decide
theorem test_shr_vy : seen (execShrWith .vy 0 1 (boot [] [(0, 0x05), (1, 0x81)])) (two 0 0xF) = some (0x40, 1) := by decide
theorem test_subn : stepped (boot [0x80, 0x17] [(0, 10), (1, 5)]) (two 0 0xF) = some (0xFB, 0) := by decide
theorem test_subn_equal : stepped (boot [0x80, 0x17] [(0, 7), (1, 7)]) (two 0 0xF) = some (0, 1) := by decide
theorem test_shl : stepped (boot [0x81, 0x0E] [(0, 0x01), (1, 0x81)]) (two 1 0xF) = some (0x02, 1) := by decide
theorem test_shl_vy : seen (execShlWith .vy 0 1 (boot [] [(0, 0x05), (1, 0x81)])) (two 0 0xF) = some (0x02, 1) := by decide
theorem test_rnd : stepped (boot [0xC3, 0x0F]) (·.readV 3) = some 0x07 := by decide

theorem test_ldI : stepped (boot [0xA3, 0x00]) (·.i) = some 0x300 := by decide
theorem test_addI : stepped (boot [0xF0, 0x1E] [(0, 0xFF), (0xF, 0x55)] 0xFFF) (fun t => (t.i, t.readV 0xF)) =
    some (0x10FE, 0x55) := by decide
theorem test_addI_wraps : stepped (boot [0xF0, 0x1E] [(0, 0x01)] 0xFFFF) (·.i) = some 0 := by decide
theorem test_ldF : stepped (boot [0xF0, 0x29] [(0, 0x0A)]) (·.i) = some 0x32 := by decide
theorem test_ldF_above : stepped (boot [0xF0, 0x29] [(0, 0x10)] 0x300) (fun t => (latch t, t.i)) =
    some ((7, 0x200, 0xF029, 0x200), 0x300) := by decide
theorem test_ldB : stepped (boot [0xFA, 0x33] [(0xA, 0x7B)] 0x300)
    (fun t => (t.readMem 0x300, t.readMem 0x301, t.readMem 0x302, t.readMem 0x303)) = some (1, 2, 3, 0) := by decide
theorem test_ldB_above : stepped (boot [0xFA, 0x33] [(0xA, 0xFF)] 0xFFE) (fun t => (latch t, t.readMem 0xFFE)) =
    some ((3, 0x200, 0xFA33, 0x200), 0) := by decide
theorem test_ldMemVx : stepped (boot [0xF1, 0x55] [(0, 1), (1, 2), (2, 9)] 0x300)
    (fun t => (t.readMem 0x300, t.readMem 0x301, t.readMem 0x302, t.i)) = some (1, 2, 0, 0x300) := by decide
theorem test_ldMemVx_above : stepped (boot [0xFF, 0x55] [(0, 1)] 0xFF1) (fun t => (latch t, t.readMem 0xFF1)) =
    some ((3, 0x200, 0xFF55, 0x200), 0) := by decide
theorem test_ldVxMem : stepped { boot [] [(3, 9)] 0x300 with
    mem := [(0x200, 0xF2), (0x201, 0x65), (0x300, 1), (0x301, 2), (0x302, 3), (0x303, 4)] }
    (fun t => (two 0 1 t, two 2 3 t, t.i)) =
    some ((1, 2), (3, 9), 0x300) := by decide
theorem test_ldVxMem_incI : seen (execLdVxMemWith true 1 (boot [] [] 0x300)) (·.i) = some 0x302 := by decide

theorem test_skp : stepped { boot [0xE5, 0x9E] [(5, 7)] with key := State.reset.key.set 7 true } (·.pc) = some 0x204 := by
  decide
theorem test_skp_above : stepped (boot [0xE5, 0x9E] [(5, 0x10)]) latch = some (6, 0x200, 0xE59E, 0x200) := by decide
theorem test_sknp : stepped (boot [0xE5, 0xA1] [(5, 7)]) (·.pc) = some 0x204 := by decide
theorem test_sknp_pressed : stepped { boot [0xE5, 0xA1] [(5, 7)] with key := State.reset.key.set 7 true } (·.pc) =
    some 0x202 := by decide
theorem test_ldVxDt : stepped { boot [0xF3, 0x07] with dt := 0x3C } (·.readV 3) = some 0x3C := by decide
theorem test_ldVxK_waits : stepped (boot [0xF0, 0x0A] [(0, 0x55)]) (fun t => (t.pc, t.keyWait, t.readV 0)) =
    some (0x200, true, 0x55) := by decide
theorem test_ldVxK_lowest : stepped { boot [0xF2, 0x0A] with key := (State.reset.key.set 3 true).set 9 true, keyWait := true }
    (fun t => (t.pc, t.keyWait, t.readV 2)) = some (0x202, false, 3) := by decide
theorem test_ldDtVx : stepped (boot [0xF0, 0x15] [(0, 7)]) (fun t => (t.dt, t.st)) = some (7, 0) := by decide
theorem test_ldStVx : stepped (boot [0xF1, 0x18] [(1, 2)]) (fun t => (t.dt, t.st)) = some (0, 2) := by decide

/-- The digit 0 at (0, 31): its second row wraps to y = 0 (2.6). -/
theorem test_drw_wraps : stepped (boot [0xD0, 0x12] [(0, 0), (1, 31), (0xF, 0x55)])
    (fun t => ([t.cell 0 31, t.cell 3 31, t.cell 4 31, t.cell 0 0, t.cell 1 0, t.cell 3 0], t.readV 0xF, t.pc)) =
    some ([true, true, false, true, false, true], 0, 0x202) := by decide +kernel
/-- A lit cell under a set bit at x = 63 + 1 clears and collides (R211, R212). -/
theorem test_drw_collides : stepped { boot [0xD1, 0x21] [(1, 63)] with
    fb := State.reset.fb.set 0 (State.reset.fb[0].set 0 true) }
    (fun t => (t.cell 63 0, t.cell 0 0, t.cell 1 0, t.readV 0xF)) = some (true, false, true, 1) := by decide +kernel

/-! ### Faults of the step, and the host's commands (2.2, 2.5, 2.7, S2, S3, S10) -/

theorem test_fetch_bound : stepped { boot [] with pc := 0xFFF } latch = some (2, 0xFFF, 0, 0xFFF) := by decide
theorem test_fetch_top : stepped { boot [] with pc := 0xFFE, mem := [(0xFFE, 0x30)] } latch = some (0, 0, 0, 0x1002) := by decide
theorem test_illegal : stepped { boot [0x60, 0x01, 0x51, 0x21] with pc := 0x202 } latch = some (1, 0x202, 0x5121, 0x202) := by
  decide
theorem test_step_before_load : stepped State.reset latch = some (1, 0x200, 0, 0x200) := by decide
theorem test_step_halted : command (.step 0xA7) { State.reset with cause := 1, dt := 5 } =
    .next { State.reset with cause := 1, dt := 5 } := by rfl
theorem test_tick : seen (command .tick { State.reset with dt := 0, st := 255, cause := 1 }) (fun t => (t.dt, t.st, t.cause)) =
    some (0, 254, 1) := by decide
theorem test_setKey : seen (command (.setKey 7 true) State.reset) (·.key) = some (State.reset.key.set 7 true) := by decide
theorem test_load : seen (command (.load [0x12, 0x34]) { State.reset with loadError := true })
    (fun t => (t.readMem 0x200, t.readMem 0x201, t.readMem 0x202, t.pc, t.loadError)) =
    some (0x12, 0x34, 0, 0x200, false) := by decide
theorem test_load_full : seen (command (.load (List.replicate 3584 0x77)) State.reset)
    (fun t => (t.readMem 0x1FF, t.readMem 0xFFF, t.loadError)) = some (0, 0x77, false) := by
  simp only [seen, command, State.load, List.length_replicate, State.readMem]
  rw [if_neg (by decide)]
  simp only [Memory.read_writeList, List.length_replicate, List.getElem_replicate]
  decide
theorem test_load_over : seen (command (.load (List.replicate 3585 0)) { State.reset with mem := [(0xFFF, 0x77)] })
    (fun t => (t.mem, t.loadError)) = some ([(0xFFF, 0x77)], true) := by decide +kernel
theorem test_reset : seen (command .reset { boot [1, 2] [(3, 4)] with cause := 1, dt := 5 })
    (fun t => (t.cause, t.dt, t.readV 3, t.readMem 0x200, t.pc)) = some (0, 0, 0, 0, 0x200) := by decide
theorem test_font_A : [50, 51, 52, 53, 54].map State.reset.readMem = [0xF0, 0x90, 0xF0, 0x90, 0x90] := by decide
theorem test_status : State.status { State.reset with cause := 7, keyWait := true, loadError := true } = 0x0077 := by decide
theorem test_pixel : State.pixel { State.reset with fb := State.reset.fb.set 1 (State.reset.fb[1].set 2 true) } 66 = true := by
  decide
theorem test_memory_canonical : Memory.write 0x300 0 (Memory.write 0x300 5 []) = [] ∧
    Memory.write 0x032 0xF0 (Memory.write 0x032 0 []) = [] := by decide
theorem test_fetchWord_step : step (State.reset.withFetchWord 16 0x6A7B) =
    exec (.ldImm 0xA 0x7B) { State.reset.withFetchWord 16 0x6A7B with rnd := Config.freeDraw 0, draws := 1 } := by rfl

/-! ### Witnesses: for each obligation with hypotheses, a state and operands that meet them together -/

/-- A state with a latched fault. -/
def haltedAt : State := { State.reset with cause := 4, faultPc := 0x200, faultWord := 0x2200, dt := 5 }

theorem witness_EncodeOfDecode : decode 0xF065 = some (.ldVxMem 0) := by decide
theorem witness_DecodeFollowsOpcodeTable : ∃ r ∈ rows, ∃ r' ∈ rows, r.selects 0x8FFE = true ∧ r'.selects 0x8FFE = true := by
  decide
theorem witness_StepRunsDecodedInstruction : ∃ s : State, s.cause = 0 ∧ s.pc.toNat < 0xFFF ∧ s.pending = [] ∧
    decode (wordOfBytes (s.readMem s.pc.toNat) (s.readMem (s.pc.toNat + 1))) = some (.seImm 0 0) :=
  ⟨{ State.reset with pc := 0xFFE, mem := [(0xFFE, 0x30)] }, by decide⟩
theorem witness_StepAcceptsPendingCommand : ∃ s t : State, s.pending = .tick :: [.reset] ∧ step s = .next t :=
  ⟨{ State.reset with pending := [.tick, .reset] }, _, rfl, rfl⟩
theorem witness_FetchBoundFault_fault : ∃ s : State, s.cause = 0 ∧ 0xFFF ≤ s.pc.toNat :=
  ⟨{ State.reset with pc := 0xFFF }, by decide⟩
theorem witness_FetchBoundFault_top : ∃ s : State, s.pc = 0xFFE := ⟨{ State.reset with pc := 0xFFE }, rfl⟩
theorem witness_IllegalWordFault : ∃ s : State, s.cause = 0 ∧ s.pc.toNat < 0xFFF ∧
    decode (wordOfBytes (s.readMem s.pc.toNat) (s.readMem (s.pc.toNat + 1))) = none :=
  ⟨{ State.reset with pc := 0xFFE, mem := [(0xFFE, 0xF1), (0xFFF, 0x66)] }, by decide⟩
theorem witness_IllegalWordFault_zeros : ∃ s : State, s.cause = 0 ∧ s.pc.toNat < 0xFFF ∧
    s.readMem s.pc.toNat = 0 ∧ s.readMem (s.pc.toNat + 1) = 0 := ⟨{ State.reset with pc := 0xFFE }, by decide⟩
theorem witness_HaltedCommands : haltedAt.cause ≠ 0 ∧ (List.replicate 3584 (0x55 : Byte)).length ≤ 3584 := by
  rw [List.length_replicate]; decide
theorem witness_FaultIsPrecise : ∃ t, (boot [0x00, 0xEE]).cause = 0 ∧ command (.step 9) (boot [0x00, 0xEE]) = .next t ∧
    t.cause ≠ 0 := ⟨_, rfl, rfl, by decide⟩
theorem witness_InstructionsTakeOnlyTheirOwnFault : ownFault .ret = some .stackUnderflow ∧ TakesFault .ret State.reset .stackUnderflow :=
  ⟨rfl, rfl⟩
theorem witness_FinalPcFollowsTable_next : ∃ t, State.reset.cause = 0 ∧ exec .cls State.reset = .next t ∧ t.cause = 0 :=
  ⟨_, rfl, rfl, rfl⟩
theorem witness_FinalPcFollowsTable_fault : ∃ t, State.reset.cause = 0 ∧ exec .ret State.reset = .next t ∧ t.cause ≠ 0 :=
  ⟨_, rfl, rfl, by decide⟩
theorem witness_KeyWaitReportsTheWait_waits : ∃ t, (boot [0xF0, 0x0A]).cause = 0 ∧
    command (.step 0) (boot [0xF0, 0x0A]) = .next t ∧ t.cause = 0 ∧ t.keyWait = true := ⟨_, rfl, rfl, rfl, rfl⟩
theorem witness_KeyWaitReportsTheWait_fault : ∃ t, command (.step 0) { boot [0x00, 0xEE] with keyWait := true } = .next t ∧
    t.cause ≠ 0 ∧ t.keyWait = true := ⟨_, rfl, by decide, rfl⟩
theorem witness_KeyWaitReportsTheWait_commands : ∃ t u v, command .tick State.reset = .next t ∧
    command (.setKey 15 true) State.reset = .next u ∧ command (.load [1]) State.reset = .next v := ⟨_, _, _, rfl, rfl, rfl⟩
theorem witness_LoadErrorIsWrittenByLoadAndReset : (∀ bytes, Command.tick ≠ .load bytes) ∧ Command.tick ≠ .reset :=
  ⟨fun _ => nofun, nofun⟩
theorem witness_OnlySetKeyWritesKeys : (0 : Fin 16) ≠ 15 := by decide
theorem witness_OnlyKeyInstructionsReadKeys : ∃ t, (∀ x, Instr.cls ≠ .skp x) ∧ (∀ x, Instr.cls ≠ .sknp x) ∧
    (∀ x, Instr.cls ≠ .ldVxK x) ∧ exec .cls State.reset = .next t := ⟨_, fun _ => nofun, fun _ => nofun, fun _ => nofun, rfl⟩
theorem witness_NoInstructionReadsSoundTimer : ∃ t u, exec (.ldStVx 15) State.reset = .next t ∧
    exec .cls State.reset = .next u ∧ ∀ x, Instr.cls ≠ .ldStVx x := ⟨_, _, rfl, rfl, fun _ => nofun⟩
theorem witness_OnlyRndReadsTheDraw : ∃ t, (∀ x kk, Instr.cls ≠ .rnd x kk) ∧ exec .cls State.reset = .next t :=
  ⟨_, fun _ _ => nofun, rfl⟩
theorem witness_FramebufferWriters_others : ∃ t u, Instr.ret ≠ .cls ∧ (∀ x y n, Instr.ret ≠ .drw x y n) ∧
    exec .ret State.reset = .next t ∧ (∀ r, Command.tick ≠ .step r) ∧ Command.tick ≠ .reset ∧ command .tick State.reset = .next u :=
  ⟨_, _, nofun, fun _ _ _ => nofun, rfl, fun _ => nofun, nofun, rfl⟩
/-- The top left cell of the digit 0 is covered, and its right neighbour in the next row is not. -/
theorem witness_SpriteCovers : SpriteCovers State.reset 0 0 2 0 0 ∧ ¬ SpriteCovers State.reset 0 0 2 1 1 :=
  ⟨⟨0, by decide, 0, by decide, by decide, rfl, rfl⟩, by
    rintro ⟨r, hr, c, hc, hb, hx, hy⟩
    obtain rfl : r = 1 := by omega
    obtain rfl : c = 1 := by omega
    exact absurd hb (by decide)⟩
theorem witness_FramebufferWriters_draw : ∃ t, State.reset.cause = 0 ∧ exec (.drw 0 1 2) State.reset = .next t ∧ t.cause = 0 :=
  ⟨_, rfl, rfl, rfl⟩
theorem witness_OnlyStoresWriteMemory : ∃ t u, exec .cls State.reset = .next t ∧ (∀ x, Instr.cls ≠ .ldB x) ∧
    (∀ x, Instr.cls ≠ .ldMemVx x) ∧ exec (.ldB 0) (boot [] [] 1) = .next u ∧ 0 < (boot [] [] 1).i.toNat :=
  ⟨_, _, rfl, fun _ => nofun, fun _ => nofun, rfl, by decide⟩
theorem witness_OnlyCallAndRetReachTheStack : ∃ t, exec .cls State.reset = .next t ∧ (∀ nnn, Instr.cls ≠ .call nnn) ∧
    Instr.cls ≠ .ret := ⟨_, rfl, fun _ => nofun, nofun⟩
theorem witness_EntriesAboveSpAreUnobservable : ∃ s' t, s' ≠ State.reset ∧ DeadStackEq State.reset s' ∧
    exec (.call 0x300) State.reset = .next t :=
  ⟨{ State.reset with stack := State.reset.stack.set 0 7 }, _, by decide, ⟨_, rfl, fun _ h => absurd h (Nat.not_lt_zero _)⟩, rfl⟩
theorem witness_CallPushesAndJumps : ∃ s t : State, s.sp.val < 16 ∧ s.sp.val = 15 ∧ t.sp.val = 16 ∧ (14 : Fin 16).val ≠ s.sp.val :=
  ⟨{ State.reset with sp := 15 }, { State.reset with sp := 16 }, by decide⟩
theorem witness_RetPopsThePc : ∃ s t : State, 0 < s.sp.val ∧ s.sp.val = 1 ∧ t.sp.val = 0 :=
  ⟨{ State.reset with sp := 1 }, State.reset, by decide⟩
theorem witness_CallThenRetResumes : ∃ s : State, s.sp.val < 16 ∧ (14 : Fin 16).val < s.sp.val :=
  ⟨{ State.reset with sp := 15 }, by decide⟩
theorem witness_AddAndSubtractWithFlag : (0 : Reg) ≠ Reg.vf := by decide
theorem witness_RandomAndOfEveryDraw : (boot [0xC3, 0x0F]).cause = 0 ∧
    (boot [0xC3, 0x0F]).fetchWord = some (encode (.rnd 3 0x0F)) := by decide
theorem witness_FontAddressOfDigit : ((boot [] [(0, 0x0F)]).readV 0).toNat ≤ 0xF ∧ 0xF < ((boot [] [(0, 0x10)]).readV 0).toNat := by
  decide
theorem witness_BcdStoresThreeDigits : (boot [] [] 0xFFD).i.toNat + 2 ≤ 0xFFF ∧ 0xFFF < (boot [] [] 0xFFE).i.toNat + 2 := by
  decide
theorem witness_RangeStoreWritesRegisters : (boot [] [] 0xFF0).i.toNat + (15 : Reg).val ≤ 0xFFF ∧
    0xFFF < (boot [] [] 0xFF1).i.toNat + (15 : Reg).val ∧ (15 : Reg) ≤ 15 := by decide
theorem witness_RangeLoadReadsRegisters : (boot [] [] 0xFFF).i.toNat + (0 : Reg).val ≤ 0xFFF ∧
    0xFFF < (boot [] [] 0x1000).i.toNat + (0 : Reg).val ∧ (0 : Reg) ≤ 0 := by decide
theorem witness_StoreThenLoadRestoresRegisters : (boot [] [] 0xFF1).i.toNat + (14 : Reg).val ≤ 0xFFF ∧ (14 : Reg) < 15 := by decide
theorem witness_StoreChangesTheNextFetch : ∃ s : State, 0 + 1 ≤ (1 : Reg).val ∧ s.i.toNat + (1 : Reg).val ≤ 0xFFF ∧
    s.pc.toNat + 2 = s.i.toNat + 0 := ⟨{ State.reset with pc := 0xFFC, i := 0xFFE }, by decide⟩
theorem witness_KeySkips : ((boot [] [(0, 0x0F)]).readV 0).toNat < 16 ∧ 0xF < ((boot [] [(0, 0x10)]).readV 0).toNat := by decide
theorem witness_KeyReadOrWait : ∃ s t : State, s.key[(15 : Fin 16).val] = true ∧
    (∀ j : Fin 16, j < 15 → s.key[j.val] = false) ∧ ∀ k : Fin 16, t.key[k.val] = false :=
  ⟨{ State.reset with key := State.reset.key.set 15 true }, State.reset, by decide⟩
theorem witness_DrawSpriteXorsAndCollides_draws : ((0 : Fin 16).val = 0 ∨ (boot [] [] 0xFFFF).i.toNat + ((0 : Fin 16).val - 1) ≤ 0xFFF) ∧
    ((2 : Fin 16).val = 0 ∨ (boot [] [] 0xFFE).i.toNat + ((2 : Fin 16).val - 1) ≤ 0xFFF) := by decide
theorem witness_DrawSpriteXorsAndCollides_fault : 0 < (2 : Fin 16).val ∧ 0xFFF < (boot [] [] 0xFFF).i.toNat + ((2 : Fin 16).val - 1) := by
  decide
theorem witness_DrawSpriteXorsAndCollides_collision : ∃ (s : State) (X : Fin 64) (Y : Fin 32),
    SpriteCovers s 0 0 1 X.val Y.val ∧ s.cell X Y = true :=
  ⟨{ State.reset with fb := State.reset.fb.set 0 (State.reset.fb[0].set 0 true) }, 0, 0,
    ⟨0, by decide, 0, by decide, by decide, rfl, rfl⟩, by decide⟩
theorem witness_DrawTwiceRestores : (0 : Reg) ≠ Reg.vf ∧ (1 : Reg) ≠ Reg.vf ∧
    ((1 : Fin 16).val = 0 ∨ (boot [] [] 0).i.toNat + ((1 : Fin 16).val - 1) ≤ 0xFFF) ∧
    (∀ X Y, (boot [] [] 0).cell X Y = false) ∧ ∃ X Y, SpriteCovers (boot [] [] 0) 0 0 1 X Y :=
  ⟨by decide, by decide, by decide, fun X Y => by simp [boot, State.cell, State.reset],
    0, 0, 0, by decide, 0, by decide, by decide, rfl, rfl⟩
theorem witness_LoadIsAllOrNothing : (List.replicate 3584 (0 : Byte)).length ≤ 3584 ∧ 3584 < (List.replicate 3585 (0 : Byte)).length ∧
    3583 < (List.replicate 3584 (0 : Byte)).length := by simp only [List.length_replicate]; decide
theorem witness_ResetSetsEveryField : ∃ t, command .reset haltedAt = .next t := ⟨_, rfl⟩
theorem witness_HaltLoopStaysFinal : (boot [0x12, 0x00]).cause = 0 ∧ (boot [0x12, 0x00]).atHaltLoop = true := by decide
/-- R270 (b): the run that starts at the halt loop has ended there. -/
theorem test_run_ends_at_halt_loop : SafeRun 0 (boot [0x12, 0x00]) (boot [0x12, 0x00]) :=
  ⟨endsAt_zero (by decide) (by decide), by decide, by decide⟩
/-- It does not end again after a TICK and a STEP more. -/
theorem test_run_ends_once (t : State) : ¬ EndsAt 2 { boot [0x12, 0x00] with pending := [.step 0, .tick] } t := fun h =>
  absurd (h.2.2 0 _ (by decide) (stepBoundary_zero.mpr ⟨rfl, rfl⟩)) (by decide)
/-- R270 (a): a halt loop loaded after a fault and RESET is no end of the run that faulted. -/
theorem test_run_ends_at_fault (k : Nat) (t : State) :
    ¬ SafeRun (k + 1) { haltedAt with pending := [.step 0, .reset, .load [0x12, 0x00]] } t := fun h =>
  absurd (h.1.2.2 0 _ (Nat.succ_pos k) (stepBoundary_zero.mpr ⟨rfl, rfl⟩)) (by decide)
/-- No STEP begins or ends between RESET and LOAD, so the latched fault before them is no boundary. -/
theorem test_no_boundary_before_reset : ¬ StepBoundary 0 { haltedAt with pending := [.reset, .load [0x12, 0x00]] }
    { haltedAt with pending := [.reset, .load [0x12, 0x00]] } := fun h => absurd (stepBoundary_zero.mp h).2 (by decide)
theorem witness_EndOfRunIsFirstAndOnly_reached : ∃ s u : State, StepBoundary 1 s u ∧ u.final = true :=
  ⟨{ boot [0x12, 0x00] with pending := [.step 0] }, _, ⟨rfl, .inl rfl⟩, by decide⟩
theorem witness_EndOfRunIsFirstAndOnly_safe : ∃ s t u : State, SafeRun 0 s t ∧ 0 ≤ 0 ∧ StepBoundary 0 s u :=
  ⟨_, _, _, test_run_ends_at_halt_loop, Nat.le_refl 0, test_run_ends_at_halt_loop.1.1⟩
theorem witness_EveryStepKeepsInvariant : ∃ t, Inv State.reset ∧ step State.reset = .next t :=
  ⟨_, ⟨rfl, by decide, by decide, fun _ => ⟨rfl, rfl⟩, fun h => absurd rfl h, nofun⟩, rfl⟩
theorem witness_FetchWordRunsNext : decodeTableWord 16 0x00E0 = some .cls ∧ decodeTableWord 16 0xFF65 = some (.ldVxMem 0xF) := by
  decide

end Sys2Proof.Tests
end

section
/-! PROOFS. The decoder reads every assembled word back (30_encoding.md R91, R95). -/

namespace Sys2Proof

/-- Every instruction is the one its own word decodes to (R95). -/
theorem decode_encode (i : Instr) : decode (encode i) = some i := by
  cases i
  case cls | ret => rfl
  case jp | call | ldI | jpV0 => simp [encode, decode, opField_encodeNnn, nnnField_encodeNnn]
  case seImm | sneImm | ldImm | addImm | rnd =>
    simp [encode, decode, opField_encodeXkk, xField_encodeXkk, kkField_encodeXkk]
  case skp | sknp => simp [encode, decode, decodeE, opField_encodeXkk, xField_encodeXkk, kkField_encodeXkk]
  case ldVxDt | ldVxK | ldDtVx | ldStVx | addI | ldF | ldB | ldMemVx | ldVxMem =>
    simp [encode, decode, decodeF, opField_encodeXkk, xField_encodeXkk, kkField_encodeXkk]
  case seReg | sneReg | drw =>
    simp [encode, decode, opField_encodeXyn, xField_encodeXyn, yField_encodeXyn, nField_encodeXyn]
  case ldReg | orReg | andReg | xorReg | addReg | sub | shr | subn | shl =>
    simp [encode, decode, decode8, opField_encodeXyn, xField_encodeXyn, yField_encodeXyn, nField_encodeXyn]

end Sys2Proof
end

section
/-! PROOFS. What every instruction can do: it takes its own fault whole, or it completes and keeps all that no
instruction reaches (10_state.md R26, R31 to R37, R43 to R45; 60_exceptions.md R222, R224). -/

namespace Sys2Proof.Machine

/-- The instruction at `s` is an Fx0A that finds no key pressed (R44, R194). -/
def waitsForKey (i : Instr) (s : State) : Bool :=
  match i with
  | .ldVxK _ => decide (∀ k : Fin 16, s.key[k.val] = false)
  | _ => false

theorem waitsForKey_eq_true {i : Instr} {s : State} :
    waitsForKey i s = true ↔ (∃ x, i = .ldVxK x) ∧ ∀ k : Fin 16, s.key[k.val] = false := by
  cases i <;> simp [waitsForKey]

/-- A waiting Fx0A leaves the pc where it is (R194). -/
theorem finalPc_of_waitsForKey {i : Instr} {s : State} (h : waitsForKey i s = true) : finalPc i s = s.pc := by
  obtain ⟨⟨x, rfl⟩, hkeys⟩ := waitsForKey_eq_true.mp h
  exact if_pos hkeys

/-- A return goes to the topmost entry in use (R122). -/
theorem finalPc_ret (s : State) : finalPc .ret s = s.stack[s.sp.val - 1] := by
  simp [finalPc, Vector.getD, show s.sp.val - 1 < 16 by omega]

/-- The instruction `i`, run at `s`, completes in `t`: where it leaves the pc and KEY_WAIT, that the keys, the fault latch,
LOAD_ERROR and the host's fields are `s`'s own, and what it may do to ST, the stack and the memory. -/
structure Completes (i : Instr) (s t : State) : Prop where
  pc : t.pc = finalPc i s
  keyWait : t.keyWait = waitsForKey i s
  rest : t = { s with
    v := t.v, i := t.i, pc := t.pc, sp := t.sp, stack := t.stack, dt := t.dt, st := t.st, fb := t.fb, mem := t.mem
    keyWait := t.keyWait }
  st : (∀ x, i ≠ .ldStVx x) → t.st = s.st
  stack : (∀ nnn, i ≠ .call nnn) → t.stack = s.stack
  pushed : ∀ j : Fin 16, t.stack[j.val] = s.stack[j.val] ∨ t.stack[j.val] = s.pc + 2
  sp : (∀ nnn, i ≠ .call nnn) → i ≠ .ret → t.sp = s.sp
  spMove : t.sp.val ≤ s.sp.val + 1 ∧ s.sp.val ≤ t.sp.val + 1
  mem : s.mem.wf = true → t.mem.wf = true

namespace Completes

variable {i : Instr} {s t : State}

theorem key (h : Completes i s t) : t.key = s.key := by rw [h.rest]
theorem cause (h : Completes i s t) : t.cause = s.cause := by rw [h.rest]
theorem faultPc (h : Completes i s t) : t.faultPc = s.faultPc := by rw [h.rest]
theorem faultWord (h : Completes i s t) : t.faultWord = s.faultWord := by rw [h.rest]
theorem loadError (h : Completes i s t) : t.loadError = s.loadError := by rw [h.rest]
theorem rnd (h : Completes i s t) : t.rnd = s.rnd := by rw [h.rest]
theorem draws (h : Completes i s t) : t.draws = s.draws := by rw [h.rest]
theorem pending (h : Completes i s t) : t.pending = s.pending := by rw [h.rest]

/-- An instruction that reaches neither ST nor the stack. -/
theorem of_kept (hpc : t.pc = finalPc i s) (hwait : t.keyWait = waitsForKey i s) (hmem : s.mem.wf = true → t.mem.wf = true)
    (h : t = { s with v := t.v, i := t.i, pc := t.pc, dt := t.dt, fb := t.fb, mem := t.mem, keyWait := t.keyWait }) :
    Completes i s t where
  pc := hpc
  keyWait := hwait
  rest := by rw [h]
  st _ := by rw [h]
  stack _ := by rw [h]
  pushed _ := .inl (by rw [h])
  sp _ _ := by rw [h]
  spMove := by rw [h]; exact ⟨Nat.le_succ _, Nat.le_succ _⟩
  mem := hmem

/-- A skip leaves the pc at `pc0 + 4` or `pc0 + 2` (R121). -/
theorem of_skipIf {c : Bool} (hpc : finalPc i s = if c = true then s.pc + 4 else s.pc + 2)
    (hwait : waitsForKey i s = false) : Completes i s (s.advance.skipIf c) := by
  refine .of_kept ?_ hwait.symm id rfl
  rw [hpc, State.skipIf_pc, State.advance_pc, show s.pc + 2 + 2 = s.pc + 4 from BitVec.add_assoc s.pc 2 2]

theorem of_call (nnn : Addr) (h : s.sp.val < 16) :
    Completes (.call nnn) s (State.jump nnn.zext
      { s.advance with stack := s.stack.set s.sp.val (s.pc + 2) h, sp := ⟨s.sp.val + 1, by omega⟩ }) where
  pc := rfl
  keyWait := rfl
  rest := rfl
  st _ := rfl
  stack hne := absurd rfl (hne nnn)
  pushed j := by
    simp only [State.jump_stack, Vector.getElem_set]
    split
    · exact .inr rfl
    · exact .inl rfl
  sp hne _ := absurd rfl (hne nnn)
  spMove := by simp only [State.jump_sp]; omega
  mem := id

theorem of_ret (h : 0 < s.sp.val) :
    Completes .ret s (State.jump s.stack[s.sp.val - 1] { s.advance with sp := ⟨s.sp.val - 1, by omega⟩ }) where
  pc := (finalPc_ret s).symm
  keyWait := rfl
  rest := rfl
  st _ := rfl
  stack _ := rfl
  pushed _ := .inl rfl
  sp _ hne := absurd rfl hne
  spMove := by simp only [State.jump_sp]; omega
  mem := id

theorem of_ldStVx (x : Reg) : Completes (.ldStVx x) s (s.advance.writeSt (s.readV x)) where
  pc := rfl
  keyWait := rfl
  rest := rfl
  st hne := absurd rfl (hne x)
  stack _ := rfl
  pushed _ := .inl rfl
  sp _ _ := rfl
  spMove := ⟨Nat.le_succ _, Nat.le_succ _⟩
  mem := id

end Completes

/-- Everything an instruction can do (R222): take its own fault, which writes only the latch, or complete. -/
theorem exec_cases (i : Instr) (s : State) :
    (∃ c, ownFault i = some c ∧ exec i s = .next (s.raise c (encode i))) ∨
    ∃ t, exec i s = .next t ∧ Completes i s t := by
  cases i
  case cls | jp | jpV0 | ldImm | addImm | ldReg | orReg | andReg | xorReg | addReg | sub | shr | subn | shl | ldI | rnd
      | ldVxDt | ldDtVx | addI => exact .inr ⟨_, rfl, .of_kept rfl rfl id rfl⟩
  case ldStVx x => exact .inr ⟨_, rfl, .of_ldStVx x⟩
  case seImm | sneImm | seReg | sneReg => exact .inr ⟨_, rfl, .of_skipIf (by simp [finalPc]) rfl⟩
  case skp x =>
    obtain ⟨-, he⟩ | ⟨hx, he⟩ := execSkp_cases x s
    · exact .inl ⟨_, rfl, he⟩
    · exact .inr ⟨_, he, .of_skipIf (by simp [finalPc, Vector.getD, hx]) rfl⟩
  case sknp x =>
    obtain ⟨-, he⟩ | ⟨hx, he⟩ := execSknp_cases x s
    · exact .inl ⟨_, rfl, he⟩
    · exact .inr ⟨_, he, .of_skipIf (by simp [finalPc, Vector.getD, hx]) rfl⟩
  case ldVxK x =>
    obtain ⟨hkeys, he⟩ | ⟨k, ⟨hk, -⟩, he⟩ := execLdVxK_cases x s
    · exact .inr ⟨_, he, .of_kept (if_pos hkeys).symm (decide_eq_true hkeys).symm id rfl⟩
    · have hkeys : ¬ ∀ k : Fin 16, s.key[k.val] = false := fun h => by simp [h k] at hk
      exact .inr ⟨_, he, .of_kept (if_neg hkeys).symm (decide_eq_false hkeys).symm id rfl⟩
  case call nnn =>
    obtain ⟨-, he⟩ | ⟨h, he⟩ := execCall_cases nnn s
    · exact .inl ⟨_, rfl, he⟩
    · exact .inr ⟨_, he, .of_call nnn h⟩
  case ret =>
    obtain ⟨-, he⟩ | ⟨h, he⟩ := execRet_cases s
    · exact .inl ⟨_, rfl, he⟩
    · exact .inr ⟨_, he, .of_ret h⟩
  case ldF x =>
    obtain ⟨-, he⟩ | ⟨-, he⟩ := execLdFWith_cases fontOor x s
    · exact .inl ⟨_, rfl, he⟩
    · exact .inr ⟨_, he, .of_kept rfl rfl id rfl⟩
  case drw x y n =>
    obtain ⟨-, he⟩ | ⟨-, he⟩ := execDrw_cases x y n s
    · exact .inl ⟨_, rfl, he⟩
    · exact .inr ⟨_, he, .of_kept rfl rfl id rfl⟩
  case ldB x =>
    obtain ⟨-, he⟩ | ⟨hi, he⟩ := execLdB_cases x s
    · exact .inl ⟨_, rfl, he⟩
    · exact .inr ⟨_, he, .of_kept rfl rfl (Memory.wf_writeList (by simp [digits]; omega)) rfl⟩
  case ldMemVx x =>
    obtain ⟨-, he⟩ | ⟨hi, he⟩ := execLdMemVxWith_cases ldstIncI x s
    · exact .inl ⟨_, rfl, he⟩
    · exact .inr ⟨_, he, .of_kept rfl rfl (State.wf_storeRange (State.dataOutOfBounds_eq_false.mpr (by omega))) rfl⟩
  case ldVxMem x =>
    obtain ⟨-, he⟩ | ⟨-, he⟩ := execLdVxMemWith_cases ldstIncI x s
    · exact .inl ⟨_, rfl, he⟩
    · exact .inr ⟨_, he, .of_kept rfl rfl id rfl⟩

/-- Everything STEP can do (R220): nothing while halted; a fault with a word that explains it; or the instruction at
`pc`, completed. -/
theorem stepCommand_outcome (r : Byte) (s : State) :
    (s.cause ≠ 0 ∧ stepCommand r s = .next s) ∨
    (s.cause = 0 ∧ ∃ c w, stepCommand r s = .next ((s.latchRnd r).raise c w) ∧
      LatchExplained ((s.latchRnd r).raise c w)) ∨
    (s.cause = 0 ∧ ∃ w i t, s.pc.toNat < 0xFFF ∧ s.fetchWord = some w ∧ decode w = some i ∧
      stepCommand r s = .next t ∧ Completes i (s.latchRnd r) t) := by
  by_cases hc : s.cause = 0
  case neg => exact .inl ⟨hc, stepCommand_halted hc r⟩
  obtain ⟨hpc, hn⟩ | ⟨w, hpc, -, hd, hn⟩ | ⟨w, i, hpc, hf, hd, hn⟩ := s.nextInstr_cases
  · exact .inr (.inl ⟨hc, _, _, stepCommand_fault hc hn r, .inl ⟨rfl, hpc, rfl⟩⟩)
  · exact .inr (.inl ⟨hc, _, _, stepCommand_fault hc hn r, .inr (.inl ⟨rfl, hpc, hd⟩)⟩)
  · have hstep := stepCommand_instr hc hn r
    obtain ⟨c, hown, he⟩ | ⟨t, he, hcomp⟩ := exec_cases i (s.latchRnd r)
    · exact .inr (.inl ⟨hc, _, _, hstep.trans he, .inr (.inr ⟨i, c, hpc, decode_encode i, hown, rfl⟩)⟩)
    · exact .inr (.inr ⟨hc, w, i, t, hpc, hf, hd, hstep.trans he, hcomp⟩)

theorem Cause.code_ne_zero (c : Cause) : c.code ≠ 0 := by cases c <;> decide

end Sys2Proof.Machine
end

section
/-! PROOFS. The invariant `Inv` is kept by every command (10_state.md R27, R43, R46; 40_control_flow.md R122;
60_exceptions.md R221 to R224). -/

namespace Sys2Proof.Machine

/-- A completed instruction leaves the pc at or below 0x10FE, the target of `JP V0, 0xFFF` with V0 = 0xFF (R27). -/
theorem finalPc_le {s : State} (hpc : s.pc.toNat < 0xFFF) (hstack : ∀ j : Fin 16, s.stack[j.val].toNat ≤ 0x1000)
    (i : Instr) : (finalPc i s).toNat ≤ 0x10FE := by
  have h2 : (s.pc + 2).toNat ≤ 0x10FE := by bv_omega
  have h4 : (s.pc + 4).toNat ≤ 0x10FE := by bv_omega
  cases i
  case jp nnn | call nnn =>
    have := nnn.isLt
    simp only [finalPc, Addr.zext, BitVec.toNat_setWidth]
    omega
  case jpV0 nnn =>
    have := nnn.isLt
    have := (s.readV 0).isLt
    simp only [finalPc, Addr.zext, Byte.zext, BitVec.toNat_add, BitVec.toNat_setWidth]
    omega
  case ret =>
    rw [finalPc_ret]
    exact (hstack ⟨s.sp.val - 1, by omega⟩).trans (by decide)
  case seImm | sneImm | seReg | sneReg | skp | sknp =>
    simp only [finalPc]
    split
    · exact h4
    · exact h2
  case ldVxK =>
    simp only [finalPc]
    split
    · omega
    · exact h2
  all_goals exact h2

/-- `Inv` reads only memory, the pc, the stack, the latch and KEY_WAIT. -/
theorem Inv.congr {s t : State} (h : Inv s) (hmem : t.mem = s.mem) (hpc : t.pc = s.pc) (hstack : t.stack = s.stack)
    (hcause : t.cause = s.cause) (hfpc : t.faultPc = s.faultPc) (hword : t.faultWord = s.faultWord)
    (hwait : t.keyWait = s.keyWait) : Inv t where
  memory := hmem ▸ h.memory
  pcBound := hpc ▸ h.pcBound
  stackBound := hstack ▸ h.stackBound
  latchClear hc := by rw [hfpc, hword]; exact h.latchClear (hcause ▸ hc)
  latchSet hc := by
    simp only [LatchExplained, hcause, hfpc, hword, hpc]
    exact h.latchSet (hcause ▸ hc)
  waiting hk := hpc ▸ h.waiting (hwait ▸ hk)

/-- Taking a fault keeps `Inv` when the word latched explains the cause (R224). -/
theorem Inv.raise {s : State} {c : Cause} {w : Word} (h : Inv s) (hex : LatchExplained (s.raise c w)) :
    Inv (s.raise c w) where
  memory := h.memory
  pcBound := h.pcBound
  stackBound := h.stackBound
  latchClear hc := absurd hc c.code_ne_zero
  latchSet _ := ⟨rfl, hex⟩
  waiting := h.waiting

/-- An instruction that completes at a fetchable pc, with no fault latched, keeps `Inv`. -/
theorem Inv.of_completes {i : Instr} {s t : State} (h : Inv s) (hc : s.cause = 0) (hpc : s.pc.toNat < 0xFFF)
    (ht : Completes i s t) : Inv t where
  memory := ht.mem h.memory
  pcBound := ht.pc ▸ finalPc_le hpc h.stackBound i
  stackBound j := by
    obtain hj | hj := ht.pushed j
    · exact hj ▸ h.stackBound j
    · rw [hj]; bv_omega
  latchClear _ := by rw [ht.faultPc, ht.faultWord]; exact h.latchClear hc
  latchSet hne := absurd (ht.cause.trans hc) hne
  waiting hk := by
    rw [ht.pc, finalPc_of_waitsForKey (ht.keyWait ▸ hk)]
    exact hpc

theorem Inv.latchRnd {s : State} (h : Inv s) (r : Byte) : Inv (s.latchRnd r) := h.congr rfl rfl rfl rfl rfl rfl rfl

theorem Inv.takeDraw {s : State} (h : Inv s) : Inv s.takeDraw := by apply h.congr <;> simp

/-- LOAD writes at 0x200 and up, at most to 0xFFF (R70). -/
theorem Inv.load {s : State} (h : Inv s) (bytes : List Byte) : Inv (s.load bytes) := by
  unfold State.load
  split
  · exact h.congr rfl rfl rfl rfl rfl rfl rfl
  · exact { h with memory := Memory.wf_writeList (by omega) h.memory }

theorem inv_reset : Inv State.reset where
  memory := State.wf_reset
  pcBound := by decide
  stackBound := by decide
  latchClear _ := ⟨rfl, rfl⟩
  latchSet hc := absurd rfl hc
  waiting := nofun

/-- RESET meets `Inv`, whatever the host's fields hold (R260). -/
theorem inv_resetCommand (s : State) : Inv s.resetCommand := inv_reset.congr rfl rfl rfl rfl rfl rfl rfl

theorem stepCommand_keeps_inv {s t : State} {r : Byte} (h : Inv s) (hst : stepCommand r s = .next t) : Inv t := by
  obtain ⟨-, he⟩ | ⟨-, c, w, he, hex⟩ | ⟨hc, w, i, u, hpc, -, -, he, hu⟩ := stepCommand_outcome r s
  · cases he.symm.trans hst; exact h
  · cases he.symm.trans hst; exact (h.latchRnd r).raise hex
  · cases he.symm.trans hst; exact (h.latchRnd r).of_completes hc hpc hu

theorem command_keeps_inv {s t : State} {c : Command} (h : Inv s) (hst : command c s = .next t) : Inv t := by
  cases c with
  | step r => exact stepCommand_keeps_inv h hst
  | tick => cases hst; exact h.congr rfl rfl rfl rfl rfl rfl rfl
  | setKey k p => cases hst; exact h.congr rfl rfl rfl rfl rfl rfl rfl
  | load bytes => cases hst; exact h.load bytes
  | reset => cases hst; exact inv_resetCommand s

/-- Settles O55: a step is STEP with a free draw or the first pending command, and each command keeps `Inv`. -/
theorem everyStepKeepsInvariant : Obligations.EveryStepKeepsInvariant := by
  intro s t h hst
  cases hp : s.pending with
  | nil => exact stepCommand_keeps_inv h.takeDraw (step_of_none hp ▸ hst)
  | cons c rest =>
    have h' : Inv { s with pending := rest } := h.congr rfl rfl rfl rfl rfl rfl rfl
    exact command_keeps_inv h' (step_of_pending hp ▸ hst)

end Sys2Proof.Machine
end

section
/-! PROOFS. What instructions do not read: the keys, ST, the random byte and the stack entries as one replaceable part of
the state (10_state.md R31, R35, R37, R52). -/

namespace Sys2Proof.Machine

/-! ### 2nnn and 00EE on each side of their bound (R32) -/

theorem exec_call_of_lt {s : State} (nnn : Addr) (h : s.sp.val < 16) : exec (.call nnn) s =
    .next (State.jump nnn.zext
      { s.advance with stack := s.stack.set s.sp.val (s.pc + 2) h, sp := ⟨s.sp.val + 1, by omega⟩ }) := by
  obtain ⟨hfull, -⟩ | ⟨_, he⟩ := execCall_cases nnn s
  · omega
  · exact he

theorem exec_call_of_full {s : State} (nnn : Addr) (h : s.sp.val = 16) :
    exec (.call nnn) s = .next (s.raise .stackOverflow (encode (.call nnn))) := by
  obtain ⟨-, he⟩ | ⟨hlt, -⟩ := execCall_cases nnn s
  · exact he
  · omega

theorem exec_ret_of_pos {s : State} (h : 0 < s.sp.val) : exec .ret s =
    .next (State.jump s.stack[s.sp.val - 1] { s.advance with sp := ⟨s.sp.val - 1, by omega⟩ }) := by
  obtain ⟨hempty, -⟩ | ⟨_, he⟩ := execRet_cases s
  · omega
  · exact he

theorem exec_ret_of_empty {s : State} (h : s.sp.val = 0) :
    exec .ret s = .next (s.raise .stackUnderflow (encode .ret)) := by
  obtain ⟨-, he⟩ | ⟨hpos, -⟩ := execRet_cases s
  · exact he
  · omega

/-! ### The hidden part -/

/-- The parts of the state that few instructions read. -/
structure Hidden where
  key : Vector Bool 16
  st : Byte
  rnd : Byte
  stack : Vector Word 16

/-- The hidden part of a state. -/
def State.hidden (s : State) : Hidden := ⟨s.key, s.st, s.rnd, s.stack⟩

/-- The state with another hidden part. -/
def State.withHidden (h : Hidden) (s : State) : State :=
  { s with key := h.key, st := h.st, rnd := h.rnd, stack := h.stack }

/-- The instructions that read the keys (R37). -/
def readsKeys : Instr → Bool
  | .skp _ | .sknp _ | .ldVxK _ => true
  | _ => false

/-- The instruction that reads the random byte (R52). -/
def readsRnd : Instr → Bool
  | .rnd _ _ => true
  | _ => false

/-- The instruction that writes ST (R35). -/
def writesSt : Instr → Bool
  | .ldStVx _ => true
  | _ => false

/-- The instructions that reach the stack (R33). -/
def reachesStack : Instr → Bool
  | .call _ | .ret => true
  | _ => false

theorem readsKeys_eq_true {i : Instr} :
    readsKeys i = true ↔ (∃ x, i = .skp x) ∨ (∃ x, i = .sknp x) ∨ ∃ x, i = .ldVxK x := by
  cases i <;> simp [readsKeys]

theorem readsRnd_eq_true {i : Instr} : readsRnd i = true ↔ ∃ x kk, i = .rnd x kk := by cases i <;> simp [readsRnd]

theorem writesSt_eq_true {i : Instr} : writesSt i = true ↔ ∃ x, i = .ldStVx x := by cases i <;> simp [writesSt]

theorem reachesStack_eq_true {i : Instr} : reachesStack i = true ↔ (∃ nnn, i = .call nnn) ∨ i = .ret := by
  cases i <;> simp [reachesStack]

/-- The hidden part `h` after `i` has left the state `t`: Fx18 and 2nnn write theirs over it. -/
def Hidden.after (h : Hidden) (i : Instr) (t : State) : Hidden :=
  { h with
    st := if writesSt i = true then t.st else h.st
    stack := if reachesStack i = true then t.stack else h.stack }

/-- The outcome with `f` applied to its next state. -/
def mapNext (f : State → State) : Result → Result
  | .next t => .next (f t)
  | .fault e => .fault e
  | .refused e => .refused e

@[simp] theorem State.readV_withHidden (s : State) (h : Hidden) (r : Reg) : (s.withHidden h).readV r = s.readV r := rfl

@[simp] theorem State.dataOutOfBounds_withHidden (s : State) (h : Hidden) (n : Nat) :
    (s.withHidden h).dataOutOfBounds n = s.dataOutOfBounds n := rfl

@[simp] theorem State.storeRange_withHidden (s : State) (h : Hidden) (n : Nat) :
    (s.withHidden h).storeRange n = s.storeRange n := by
  induction n with
  | zero => rfl
  | succ n ih => rw [State.storeRange, ih]; rfl

@[simp] theorem State.loadRange_withHidden (s : State) (h : Hidden) (n : Nat) :
    (s.withHidden h).loadRange n = s.loadRange n := by
  induction n with
  | zero => rfl
  | succ n ih => rw [State.loadRange, ih]; rfl

@[simp] theorem State.drawRows_withHidden (s : State) (h : Hidden) (x0 y0 n : Nat) :
    (s.withHidden h).drawRows x0 y0 n = s.drawRows x0 y0 n := by
  induction n with
  | zero => rfl
  | succ n ih => simp only [State.drawRows, ih]; rfl

/-- THE UNREAD PARTS: another hidden part, equal in what `i` reads of it, gives the same outcome but for that part. -/
theorem exec_withHidden {i : Instr} {s : State} {h : Hidden} (hkey : readsKeys i = true → h.key = s.key)
    (hrnd : readsRnd i = true → h.rnd = s.rnd) (hstack : reachesStack i = true → h.stack = s.stack) :
    exec i (s.withHidden h) = mapNext (fun t => t.withHidden (h.after i t)) (exec i s) := by
  obtain ⟨key, st, rnd, stack⟩ := h
  cases i
  case cls | jp | jpV0 | seImm | sneImm | seReg | sneReg | ldImm | addImm | ldReg | orReg | andReg | xorReg | addReg | sub
      | shr | subn | shl | ldI | ldVxDt | ldDtVx | ldStVx | addI => rfl
  case rnd => obtain rfl : rnd = s.rnd := hrnd rfl; rfl
  case skp x =>
    obtain rfl : key = s.key := hkey rfl
    have hk : (s.withHidden ⟨s.key, st, rnd, stack⟩).keyOf x = s.keyOf x := rfl
    simp only [exec, execSkp, hk]
    cases s.keyOf x <;> rfl
  case sknp x =>
    obtain rfl : key = s.key := hkey rfl
    have hk : (s.withHidden ⟨s.key, st, rnd, stack⟩).keyOf x = s.keyOf x := rfl
    simp only [exec, execSknp, hk]
    cases s.keyOf x <;> rfl
  case ldVxK x =>
    obtain rfl : key = s.key := hkey rfl
    have hk : (s.withHidden ⟨s.key, st, rnd, stack⟩).firstKey = s.firstKey := rfl
    simp only [exec, execLdVxK, hk]
    cases s.firstKey <;> rfl
  case call nnn =>
    obtain rfl : stack = s.stack := hstack rfl
    by_cases hsp : s.sp.val < 16
    · rw [exec_call_of_lt nnn hsp]; exact exec_call_of_lt (s := s.withHidden _) nnn hsp
    · have hfull : s.sp.val = 16 := by omega
      rw [exec_call_of_full nnn hfull]; exact exec_call_of_full (s := s.withHidden _) nnn hfull
  case ret =>
    obtain rfl : stack = s.stack := hstack rfl
    by_cases hsp : 0 < s.sp.val
    · rw [exec_ret_of_pos hsp]; exact exec_ret_of_pos (s := s.withHidden _) hsp
    · have hempty : s.sp.val = 0 := by omega
      rw [exec_ret_of_empty hempty]; exact exec_ret_of_empty (s := s.withHidden _) hempty
  case ldF x =>
    obtain ⟨hx, he⟩ | ⟨hx, he⟩ := execLdFWith_cases fontOor x s
    · rw [show exec (.ldF x) s = _ from he]; exact if_pos hx
    · rw [show exec (.ldF x) s = _ from he]; exact if_neg hx
  case drw =>
    simp only [exec, execDrw, State.dataOutOfBounds_withHidden, State.readV_withHidden, State.drawRows_withHidden]
    split <;> rfl
  case ldB =>
    cases hi : s.dataOutOfBounds 3 <;> simp only [exec, execLdB, State.dataOutOfBounds_withHidden, hi] <;> rfl
  case ldMemVx =>
    simp only [exec, execLdMemVx, execLdMemVxWith, State.dataOutOfBounds_withHidden, State.storeRange_withHidden]
    split <;> rfl
  case ldVxMem =>
    simp only [exec, execLdVxMem, execLdVxMemWith, State.dataOutOfBounds_withHidden, State.loadRange_withHidden]
    split <;> rfl

/-- `exec_withHidden` for an instruction that answers `t`, with `h'` the hidden part that is left. -/
theorem exec_withHidden_next {i : Instr} {s t : State} {h h' : Hidden} (hkey : readsKeys i = true → h.key = s.key)
    (hrnd : readsRnd i = true → h.rnd = s.rnd) (hstack : reachesStack i = true → h.stack = s.stack)
    (hafter : h.after i t = h') (hx : exec i s = .next t) : exec i (s.withHidden h) = .next (t.withHidden h') := by
  subst hafter
  rw [exec_withHidden hkey hrnd hstack, hx]; rfl

/-- What an instruction leaves of the hidden part (R33, R35, R37). -/
theorem hidden_after_exec {i : Instr} {s t : State} (hx : exec i s = .next t) : s.hidden.after i t = t.hidden := by
  obtain ⟨c, -, he⟩ | ⟨u, he, hu⟩ := exec_cases i s
  · cases he.symm.trans hx
    simp [Hidden.after, State.hidden]
  · cases he.symm.trans hx
    have hst : ¬ writesSt i = true → s.st = t.st := fun hw => (hu.st fun x h => hw (h ▸ rfl)).symm
    have hstack : ¬ reachesStack i = true → s.stack = t.stack := fun hr => (hu.stack fun x h => hr (h ▸ rfl)).symm
    simp only [Hidden.after, State.hidden, hu.key, hu.rnd, ite_eq_left_iff.mpr hst, ite_eq_left_iff.mpr hstack]

/-- Settles O18: the keys are a hidden part that only Ex9E, ExA1 and Fx0A read. -/
theorem onlyKeyInstructionsReadKeys : Obligations.OnlyKeyInstructionsReadKeys := by
  intro i s t key hskp hsknp hldVxK hx
  have hkey : readsKeys i = true → key = s.key := by
    rw [readsKeys_eq_true]
    rintro (⟨x, hi⟩ | ⟨x, hi⟩ | ⟨x, hi⟩)
    · exact absurd hi (hskp x)
    · exact absurd hi (hsknp x)
    · exact absurd hi (hldVxK x)
  have hafter : { s.hidden with key := key }.after i t = { t.hidden with key := key } := by
    rw [← hidden_after_exec hx]; rfl
  exact exec_withHidden_next hkey (fun _ => rfl) (fun _ => rfl) hafter hx

/-- Settles O20: the random byte is a hidden part that only Cxkk reads. -/
theorem onlyRndReadsTheDraw : Obligations.OnlyRndReadsTheDraw := by
  intro i s t r hne hx
  have hrnd : readsRnd i = true → r = s.rnd := by
    rw [readsRnd_eq_true]
    rintro ⟨x, kk, hi⟩
    exact absurd hi (hne x kk)
  have hafter : { s.hidden with rnd := r }.after i t = { t.hidden with rnd := r } := by
    rw [← hidden_after_exec hx]; rfl
  exact exec_withHidden_next (fun _ => rfl) hrnd (fun _ => rfl) hafter hx

/-- Settles O19: ST is a hidden part that nothing reads and only Fx18 writes. -/
theorem noInstructionReadsSoundTimer : Obligations.NoInstructionReadsSoundTimer := by
  intro i s t b hx
  have hafter : { s.hidden with st := b }.after i t = { t.hidden with st := if writesSt i = true then t.st else b } := by
    rw [← hidden_after_exec hx]; rfl
  have hb : exec i { s with st := b } = .next { t with st := if writesSt i = true then t.st else b } :=
    exec_withHidden_next (fun _ => rfl) (fun _ => rfl) (fun _ => rfl) hafter hx
  constructor
  · intro x hi
    rwa [if_pos (writesSt_eq_true.mpr ⟨x, hi⟩)] at hb
  · intro hne
    have hw : ¬ writesSt i = true := fun h => (writesSt_eq_true.mp h).elim hne
    rw [if_neg hw] at hb
    refine ⟨?_, hb⟩
    have hst : (s.hidden.after i t).st = s.st := if_neg hw
    rw [hidden_after_exec hx] at hst
    exact hst

/-! ### Stack entries not in use (R31) -/

/-- Settles O23: an instruction that faults changes only the latch, and one that completes moves what `Completes` says. -/
theorem onlyCallAndRetReachTheStack : Obligations.OnlyCallAndRetReachTheStack := by
  intro i s t hx
  obtain ⟨c, -, he⟩ | ⟨u, he, hu⟩ := exec_cases i s
  · cases he.symm.trans hx
    exact ⟨fun _ => rfl, fun _ _ => rfl, Nat.le_succ _, Nat.le_succ _⟩
  · cases he.symm.trans hx
    exact ⟨hu.stack, hu.sp, hu.spMove⟩

/-- 2nnn overwrites the entry at SP, so the entries that it leaves in use were in use or are the pushed one. -/
theorem exec_call_deadStackEq {nnn : Addr} {s t : State} {k : Vector Word 16}
    (hk : ∀ j : Fin 16, j.val < s.sp.val → k[j.val] = s.stack[j.val]) (hx : exec (.call nnn) s = .next t) :
    ∃ t', exec (.call nnn) { s with stack := k } = .next t' ∧ DeadStackEq t t' := by
  by_cases hsp : s.sp.val < 16
  · cases (exec_call_of_lt nnn hsp).symm.trans hx
    refine ⟨_, exec_call_of_lt (s := { s with stack := k }) nnn hsp, k.set s.sp.val (s.pc + 2) hsp, rfl, fun j hj => ?_⟩
    simp only [State.jump_stack, Vector.getElem_set]
    split
    · rfl
    · exact hk j (by simp only [State.jump_sp] at hj; omega)
  · have hfull : s.sp.val = 16 := by omega
    cases (exec_call_of_full nnn hfull).symm.trans hx
    exact ⟨_, exec_call_of_full nnn hfull, k, rfl, hk⟩

/-- 00EE reads the topmost entry in use. -/
theorem exec_ret_deadStackEq {s t : State} {k : Vector Word 16}
    (hk : ∀ j : Fin 16, j.val < s.sp.val → k[j.val] = s.stack[j.val]) (hx : exec .ret s = .next t) :
    ∃ t', exec .ret { s with stack := k } = .next t' ∧ DeadStackEq t t' := by
  by_cases hsp : 0 < s.sp.val
  · cases (exec_ret_of_pos hsp).symm.trans hx
    refine ⟨_, exec_ret_of_pos (s := { s with stack := k }) hsp, k, ?_,
      fun j hj => hk j (by simp only [State.jump_sp] at hj; omega)⟩
    have htop : k[s.sp.val - 1] = s.stack[s.sp.val - 1] := hk ⟨s.sp.val - 1, by omega⟩ (by simp only; omega)
    simp only [State.jump, State.advance, htop]
  · have hempty : s.sp.val = 0 := by omega
    cases (exec_ret_of_empty hempty).symm.trans hx
    exact ⟨_, exec_ret_of_empty hempty, k, rfl, hk⟩

/-- Settles O24: only 2nnn and 00EE reach the stack. -/
theorem entriesAboveSpAreUnobservable : Obligations.EntriesAboveSpAreUnobservable := by
  rintro i s _ t ⟨k, rfl, hk⟩ hx
  by_cases hr : reachesStack i = true
  · obtain ⟨nnn, rfl⟩ | rfl := reachesStack_eq_true.mp hr
    · exact exec_call_deadStackEq hk hx
    · exact exec_ret_deadStackEq hk hx
  · have hafter : { s.hidden with stack := k }.after i t = { t.hidden with stack := k } := by
      rw [← hidden_after_exec hx]; simp [Hidden.after, hr]
    refine ⟨_, exec_withHidden_next (fun _ => rfl) (fun _ => rfl) (fun h => absurd h hr) hafter hx, k, rfl, ?_⟩
    have hne : (∀ nnn, i ≠ .call nnn) ∧ i ≠ .ret := by simpa [reachesStack_eq_true] using hr
    obtain ⟨hstack, hsp, -⟩ := onlyCallAndRetReachTheStack i s t hx
    rw [hstack hne.1, hsp hne.1 hne.2]
    exact hk

end Sys2Proof.Machine
end

section
/-! PROOFS. The pc, KEY_WAIT, the keys, LOAD_ERROR, a call and its return, and the views (10_state.md R26, R32, R37, R38,
R44, R45, R55). -/

namespace Sys2Proof.Machine

/-- Settles O14: a fault keeps the pc, and an instruction that completes leaves it where `Completes` says. -/
theorem finalPcFollowsTable : Obligations.FinalPcFollowsTable := by
  intro i s t hc hx
  obtain ⟨c, -, he⟩ | ⟨u, he, hu⟩ := exec_cases i s
  · cases he.symm.trans hx
    exact ⟨fun h => absurd h c.code_ne_zero, fun _ => rfl⟩
  · cases he.symm.trans hx
    exact ⟨fun _ => hu.pc, fun h => absurd (hu.cause.trans hc) h⟩

/-- A STEP of a running machine leaves KEY_WAIT 1 exactly when it executed a waiting Fx0A, or, when it faults, as it was
(R44). -/
theorem stepCommand_keyWait {s t : State} {r : Byte} (hc : s.cause = 0) (hst : stepCommand r s = .next t) :
    (t.cause = 0 → (t.keyWait = true ↔
      ∃ w x, s.fetchWord = some w ∧ decode w = some (.ldVxK x) ∧ ∀ k : Fin 16, s.key[k.val] = false)) ∧
    (t.cause ≠ 0 → t.keyWait = s.keyWait) := by
  obtain ⟨hne, -⟩ | ⟨-, c, w, he, -⟩ | ⟨-, w, i, u, -, hf, hd, he, hu⟩ := stepCommand_outcome r s
  · exact absurd hc hne
  · cases he.symm.trans hst
    exact ⟨fun h => absurd h c.code_ne_zero, fun _ => rfl⟩
  · cases he.symm.trans hst
    refine ⟨fun _ => ?_, fun h => absurd (hu.cause.trans hc) h⟩
    rw [hu.keyWait, waitsForKey_eq_true]
    constructor
    · rintro ⟨⟨x, rfl⟩, hkeys⟩
      exact ⟨w, x, hf, hd, hkeys⟩
    · rintro ⟨w', x, hf', hd', hkeys⟩
      cases hf.symm.trans hf'
      cases hd.symm.trans hd'
      exact ⟨⟨x, rfl⟩, hkeys⟩

/-- Settles O15: STEP by `stepCommand_keyWait`, and no other command reaches KEY_WAIT but RESET, which clears it. -/
theorem keyWaitReportsTheWait : Obligations.KeyWaitReportsTheWait := by
  refine ⟨fun s t r hc hst => stepCommand_keyWait hc hst, ?_, ?_, ?_, rfl⟩
  · rintro s _ ⟨⟩; rfl
  · rintro s _ k p ⟨⟩; rfl
  · rintro s _ bytes ⟨⟩; exact s.load_keyWait bytes

/-- STEP answers a next state and leaves the keys and LOAD_ERROR as they were (R37, R45). -/
theorem stepCommand_keeps (r : Byte) (s : State) :
    ∃ t, stepCommand r s = .next t ∧ t.key = s.key ∧ t.loadError = s.loadError := by
  obtain ⟨-, he⟩ | ⟨-, c, w, he, -⟩ | ⟨-, w, i, u, -, -, -, he, hu⟩ := stepCommand_outcome r s
  · exact ⟨_, he, rfl, rfl⟩
  · exact ⟨_, he, rfl, rfl⟩
  · exact ⟨_, he, hu.key, hu.loadError⟩

/-- Settles O17: STEP keeps the keys, and SET_KEY is a write of one entry of the key vector. -/
theorem onlySetKeyWritesKeys : Obligations.OnlySetKeyWritesKeys := by
  constructor
  · intro s r
    obtain ⟨t, he, hkey, -⟩ := stepCommand_keeps r s
    exact ⟨t, he, hkey⟩
  · intro s k p
    refine ⟨s.setKey k p, rfl, ?_, fun j hj => ?_, rfl⟩
    · exact Vector.getElem_set_self ..
    · exact Vector.getElem_set_ne k.isLt j.isLt (fun h => hj (Fin.ext h.symm))

/-- Settles O16: LOAD and RESET write LOAD_ERROR outright, and every other command keeps it. -/
theorem loadErrorIsWrittenByLoadAndReset : Obligations.LoadErrorIsWrittenByLoadAndReset := by
  refine ⟨fun s bytes => ⟨_, rfl, by simp⟩, fun s => ⟨_, rfl, rfl⟩, fun s c hload hreset => ?_, rfl⟩
  cases c with
  | step r =>
    obtain ⟨t, he, -, hle⟩ := stepCommand_keeps r s
    exact ⟨t, he, hle⟩
  | tick => exact ⟨_, rfl, rfl⟩
  | setKey k p => exact ⟨_, rfl, rfl⟩
  | load bytes => exact absurd rfl (hload bytes)
  | reset => exact absurd rfl hreset

/-- Settles O29: the entry that 2nnn pushes is the one that 00EE pops. -/
theorem callThenRetResumes : Obligations.CallThenRetResumes := by
  intro s nnn hsp
  refine ⟨_, _, exec_call_of_lt nnn hsp, exec_ret_of_pos (Nat.succ_pos _), ?_, ?_, ?_, ?_⟩
  · simp
  · simp
  · intro j hj
    simp [hj.ne']
  · exact ⟨fun _ _ => rfl, fun _ => rfl, nofun, fun _ => rfl, fun _ => rfl, fun _ _ _ => rfl, fun _ _ => rfl, fun _ => rfl,
      ⟨rfl, rfl, rfl⟩, rfl, ⟨rfl, rfl, rfl⟩⟩

/-- STATUS as a number, with the ranges of its parts (R55): no part carries into the next. -/
theorem State.toNat_status (s : State) :
    s.cause.toNat < 0x10 ∧ s.halted.toNat ≤ 1 ∧ s.keyWait.toNat ≤ 1 ∧ s.loadError.toNat ≤ 1 ∧
      s.status.toNat =
        s.cause.toNat + s.halted.toNat * 0x10 + s.keyWait.toNat * 0x20 + s.loadError.toNat * 0x40 := by
  have hc : s.cause.toNat < 0x10 := s.cause.isLt
  have hh := s.halted.toNat_le
  have hk := s.keyWait.toNat_le
  have hl := s.loadError.toNat_le
  refine ⟨hc, hh, hk, hl, ?_⟩
  rw [State.status, BitVec.toNat_ofNat]
  omega

/-- A bit of STATUS that the number holds as a flag is that flag. -/
theorem State.getLsbD_status {s : State} {j : Nat} {b : Bool} (h : s.status.toNat / 2 ^ j % 2 = b.toNat) :
    s.status.getLsbD j = b := by
  rw [BitVec.getLsbD, Nat.testBit_eq_decide_div_mod_eq, h]
  cases b <;> rfl

/-- Settles O51: each part of STATUS is read off its number by division. -/
theorem statusPacksTheFlags : Obligations.StatusPacksTheFlags := by
  intro s
  obtain ⟨hc, hh, hk, hl, hn⟩ := s.toNat_status
  refine ⟨?_, ?_, State.getLsbD_status (by omega), State.getLsbD_status (by omega), ?_⟩
  · apply BitVec.eq_of_toNat_eq
    rw [BitVec.extractLsb'_toNat, Nat.shiftRight_zero]
    omega
  · rw [State.getLsbD_status (b := s.halted) (by omega)]
    exact State.halted_eq_true
  · apply BitVec.eq_of_toNat_eq
    rw [BitVec.extractLsb'_toNat, Nat.shiftRight_eq_div_pow]
    change s.status.toNat / 2 ^ 7 % 2 ^ 9 = 0
    omega

/-- Settles O52: `x + 64 * y` with `x < 64` has remainder `x` and quotient `y` by 64. -/
theorem pixelViewIsRowMajor : Obligations.PixelViewIsRowMajor := by
  intro s X Y
  have hx : (X.val + 64 * Y.val) % 64 = X.val := by omega
  have hy : (X.val + 64 * Y.val) / 64 = Y.val := by omega
  refine ⟨by omega, ?_⟩
  simp only [State.pixel, hx, hy]

end Sys2Proof.Machine
end

section
/-! PROOFS. What reaches memory: the two stores and LOAD, and what the next fetch reads of it (20_memory.md R62 to R65,
R70, R71, R75). -/

namespace Sys2Proof.Machine

/-! ### The fetch bound (R63) -/

/-- A fetch below the bound reads the two bytes at the pc (R63, R64). -/
theorem State.fetchWord_of_lt {s : State} (h : s.pc.toNat < 0xFFF) :
    s.fetchWord = some (wordOfBytes (s.readMem s.pc.toNat) (s.readMem (s.pc.toNat + 1))) := if_pos h

/-- Settles O8: a pc out of reach is a fetch fault, and 0xFFE is the last pc in reach. -/
theorem fetchBoundFault : Obligations.FetchBoundFault := by
  constructor
  · intro s r hc hpc
    exact stepCommand_fault hc (State.nextInstr_of_bound hpc) r
  · intro s hpc
    have hn : s.pc.toNat = 0xFFE := congrArg BitVec.toNat hpc
    constructor
    · rw [State.fetchWord_of_lt (by omega), hn]
    · rw [State.advance_pc, hpc]; rfl

/-! ### LOAD (R70, R71) -/

/-- LOAD of more bytes than fit is rejected whole. -/
theorem State.load_of_gt {s : State} {bytes : List Byte} (h : 3584 < bytes.length) :
    s.load bytes = { s with loadError := true } := if_pos h

/-- LOAD of bytes that fit writes them at 0x200 and up. -/
theorem State.load_of_le {s : State} {bytes : List Byte} (h : bytes.length ≤ 3584) :
    s.load bytes = { s with mem := Memory.writeList 0x200 bytes s.mem, loadError := false } := if_neg (Nat.not_lt.mpr h)

/-- What memory holds after a LOAD of bytes that fit: the bytes from 0x200 up, and the rest as it was. -/
theorem State.readMem_load_of_le {s : State} {bytes : List Byte} (h : bytes.length ≤ 3584) (a : Nat) :
    (s.load bytes).readMem a =
      if ha : 0x200 ≤ a ∧ a < 0x200 + bytes.length then bytes[a - 0x200]'(by omega) else s.readMem a := by
  rw [State.load_of_le h]
  exact Memory.read_writeList bytes 0x200 a s.mem

/-- Settles O48: each side of the length bound is one branch of LOAD. -/
theorem loadIsAllOrNothing : Obligations.LoadIsAllOrNothing := by
  intro s bytes
  constructor
  · intro hlen
    refine ⟨s.load bytes, rfl, fun j hj => ?_, fun a ha => ?_, ?_, ?_⟩
    · simp [State.readMem_load_of_le hlen, hj]
    · rw [State.readMem_load_of_le hlen, dif_neg (by omega)]
    · simp [hlen]
    · rw [State.load_of_le hlen]
  · intro hlen
    exact congrArg Host.Outcome.next (State.load_of_gt hlen)

/-! ### The stores (R65, R173, R174) -/

/-- Everything an instruction can do to memory (R65): nothing, unless it is a store in bounds. -/
theorem exec_mem_cases (i : Instr) (s : State) : ∃ t, exec i s = .next t ∧
    (t.mem = s.mem ∨
    (∃ x, i = .ldB x ∧ t.mem = Memory.writeList s.i.toNat (digits (s.readV x)) s.mem) ∨
    (∃ x, i = .ldMemVx x ∧ t.mem = s.storeRange (x.val + 1))) := by
  cases i
  case cls | jp | jpV0 | seImm | sneImm | seReg | sneReg | ldImm | addImm | ldReg | orReg | andReg | xorReg | addReg | sub
      | shr | subn | shl | ldI | rnd | ldVxDt | ldDtVx | ldStVx | addI => exact ⟨_, rfl, .inl rfl⟩
  case ret => obtain ⟨_, he⟩ | ⟨_, he⟩ := execRet_cases s <;> exact ⟨_, he, .inl rfl⟩
  case call nnn => obtain ⟨_, he⟩ | ⟨_, he⟩ := execCall_cases nnn s <;> exact ⟨_, he, .inl rfl⟩
  case skp x => obtain ⟨_, he⟩ | ⟨_, he⟩ := execSkp_cases x s <;> exact ⟨_, he, .inl rfl⟩
  case sknp x => obtain ⟨_, he⟩ | ⟨_, he⟩ := execSknp_cases x s <;> exact ⟨_, he, .inl rfl⟩
  case ldVxK x => obtain ⟨_, he⟩ | ⟨_, _, he⟩ := execLdVxK_cases x s <;> exact ⟨_, he, .inl rfl⟩
  case ldF x => obtain ⟨_, he⟩ | ⟨_, he⟩ := execLdFWith_cases fontOor x s <;> exact ⟨_, he, .inl rfl⟩
  case drw x y n => obtain ⟨_, he⟩ | ⟨_, he⟩ := execDrw_cases x y n s <;> exact ⟨_, he, .inl rfl⟩
  case ldVxMem x => obtain ⟨_, he⟩ | ⟨_, he⟩ := execLdVxMemWith_cases ldstIncI x s <;> exact ⟨_, he, .inl rfl⟩
  case ldB x =>
    obtain ⟨-, he⟩ | ⟨-, he⟩ := execLdB_cases x s
    · exact ⟨_, he, .inl rfl⟩
    · exact ⟨_, he, .inr (.inl ⟨x, rfl, rfl⟩)⟩
  case ldMemVx x =>
    obtain ⟨-, he⟩ | ⟨-, he⟩ := execLdMemVxWith_cases ldstIncI x s
    · exact ⟨_, he, .inl rfl⟩
    · exact ⟨_, he, .inr (.inr ⟨x, rfl, rfl⟩)⟩

/-- Settles O22: only the two stores reach memory, and both write from I up. -/
theorem onlyStoresWriteMemory : Obligations.OnlyStoresWriteMemory := by
  intro i s t hx
  obtain ⟨u, he, hm⟩ := exec_mem_cases i s
  cases he.symm.trans hx
  obtain hm | ⟨x, rfl, hm⟩ | ⟨x, rfl, hm⟩ := hm
  · have hread : ∀ a, t.readMem a = s.readMem a := fun a => congrArg (Memory.read a) hm
    exact ⟨fun _ _ => hread, fun a _ => hread a⟩
  · refine ⟨fun hne => absurd rfl (hne x), fun a ha => ?_⟩
    rw [State.readMem, hm, Memory.read_writeList, dif_neg (by omega), State.readMem]
  · refine ⟨fun _ hne => absurd rfl (hne x), fun a ha => ?_⟩
    have h0 := s.ea_eq 0
    rw [State.readMem, hm, State.read_storeRange, if_neg (by omega)]

/-! ### A store over the next instruction (R75) -/

/-- Fx55 in bounds completes with its range stored and, as LDST_INC_I = false, with I kept (R174). -/
theorem exec_ldMemVx_of_le {s : State} {x : Reg} (h : s.i.toNat + x.val ≤ 0xFFF) : exec (.ldMemVx x) s =
    .next ((s.advance.withMem (s.storeRange (x.val + 1))).writeI s.i) := by
  obtain ⟨hi, -⟩ | ⟨-, he⟩ := execLdMemVxWith_cases ldstIncI x s
  · omega
  · exact he

/-- The byte that a range store puts at `I + k` is `V[k]` (R174). -/
theorem State.read_storeRange_of_lt {s : State} {n k : Nat} (hk : k < n) (hn : n ≤ 16) :
    Memory.read (s.i.toNat + k) (s.storeRange n) = s.readV ⟨k, by omega⟩ := by
  have h0 := s.ea_eq 0
  have hend := s.ea_eq n
  rw [State.read_storeRange, if_pos (by omega), show s.i.toNat + k - s.ea 0 = k by omega]
  simp [State.readV, Vector.getD, show k < 16 by omega]

/-- Settles O40: the next fetch, at `pc0 + 2 = I + k`, reads the stored `V[k]` and `V[k+1]`. -/
theorem storeChangesTheNextFetch : Obligations.StoreChangesTheNextFetch := by
  intro s x k hk hi hpc
  refine ⟨_, exec_ldMemVx_of_le hi, ?_⟩
  have hpc2 : (s.pc + 2).toNat = s.i.toNat + k := by bv_omega
  rw [State.fetchWord_of_lt (by simp only [State.writeI_pc, State.withMem_pc, State.advance_pc]; omega)]
  simp only [State.readMem, State.writeI_pc, State.writeI_mem, State.withMem_pc, State.withMem_mem, State.advance_pc, hpc2]
  rw [Nat.add_assoc, State.read_storeRange_of_lt (by omega) (by omega), State.read_storeRange_of_lt (by omega) (by omega)]

end Sys2Proof.Machine
end

section
/-! PROOFS. The encoding: decoder and encoder are inverse to each other, the decoder follows the opcode table, and the words
it refuses (30_encoding.md R90 to R98). -/

namespace Sys2Proof

/-! ### Decode after encode (R90, R91, R95) -/

/-- The two bytes of an instruction decode to it, whatever follows them (R90). -/
theorem decodeBytes_encodeBytes_append (i : Instr) (rest : List Byte) :
    decodeBytes (encodeBytes i ++ rest) = .ok (i, rest) := by
  simp [encodeBytes, decodeBytes, wordOfBytes_bytes, decode_encode]

/-- Settles O2: the word by `decode_encode`, and the bytes make that word again. -/
theorem decodeOfEncode : Obligations.DecodeOfEncode :=
  fun i => ⟨decode_encode i, decodeBytes_encodeBytes_append i⟩

/-! ### Encode after decode (R94, R95) -/

/-- Family 0x0 holds two words. -/
theorem encode_of_decode0 {w : Word} {i : Instr} (h : decode0 w = some i) : encode i = w := by
  unfold decode0 at h
  split at h
  case isTrue hw => cases h; exact BitVec.eq_of_toNat_eq hw.symm
  case isFalse =>
    split at h
    case isTrue hw => cases h; exact BitVec.eq_of_toNat_eq hw.symm
    case isFalse => cases h

/-- Family 0x8: the lowest nibble that selects the operation is the one it is assembled with. -/
theorem encode_of_decode8 {x y : Reg} {n : Fin 16} {i : Instr} (h : decode8 x y n.val = some i) :
    encode i = encodeXyn 0x8 x y n := by
  obtain ⟨n, hn⟩ := n
  simp only [decode8] at h
  split at h <;> cases h <;> rfl

/-- Family 0xE: the lowest byte that selects the operation is the one it is assembled with. -/
theorem encode_of_decodeE {x : Reg} {kk : Byte} {i : Instr} (h : decodeE x kk.toNat = some i) :
    encode i = encodeXkk 0xE x kk := by
  unfold decodeE at h
  split_ifs at h <;> cases h <;> simp only [encode, encodeXkk, *] <;> rfl

/-- Family 0xF: the lowest byte that selects the operation is the one it is assembled with. -/
theorem encode_of_decodeF {x : Reg} {kk : Byte} {i : Instr} (h : decodeF x kk.toNat = some i) :
    encode i = encodeXkk 0xF x kk := by
  unfold decodeF at h
  split_ifs at h <;> cases h <;> simp only [encode, encodeXkk, *] <;> rfl

/-- An instruction read from a word is assembled to that word: in each family the word is made of the fields read (R91). -/
theorem encode_of_decode {w : Word} {i : Instr} (h : decode w = some i) : encode i = w := by
  unfold decode at h
  split at h
  case h_1 => exact encode_of_decode0 h
  case h_2 hop | h_3 hop | h_11 hop | h_12 hop => cases h; exact encodeNnn_fields hop
  case h_4 hop | h_5 hop | h_7 hop | h_8 hop | h_13 hop => cases h; exact encodeXkk_fields hop
  case h_6 hop | h_10 hop =>
    obtain ⟨hn, h⟩ := Option.ite_none_right_eq_some.mp h
    cases h
    have hw := encodeXyn_fields hop
    rwa [hn] at hw
  case h_9 hop => exact (encode_of_decode8 h).trans (encodeXyn_fields hop)
  case h_14 hop => cases h; exact encodeXyn_fields hop
  case h_15 hop => exact (encode_of_decodeE h).trans (encodeXkk_fields hop)
  case h_16 hop => exact (encode_of_decodeF h).trans (encodeXkk_fields hop)
  case h_17 => cases h

/-- Settles O3, family by family. -/
theorem encodeOfDecode : Obligations.EncodeOfDecode := fun _ _ => encode_of_decode

/-! ### The words the decoder refuses (R96) -/

theorem decode0_eq_none {w : Word} : decode0 w = none ↔ w.toNat ≠ 0x00E0 ∧ w.toNat ≠ 0x00EE := by
  simp only [decode0]; split_ifs <;> simp_all

theorem decode8_eq_none {x y : Reg} {n : Fin 16} :
    decode8 x y n.val = none ↔ n.val ∈ [0x8, 0x9, 0xA, 0xB, 0xC, 0xD, 0xF] := by
  fin_cases n <;> simp [decode8]

theorem decodeE_eq_none {x : Reg} {kk : Nat} : decodeE x kk = none ↔ kk ∉ [0x9E, 0xA1] := by
  simp only [decodeE]; split_ifs <;> simp_all

theorem decodeF_eq_none {x : Reg} {kk : Nat} :
    decodeF x kk = none ↔ kk ∉ [0x07, 0x0A, 0x15, 0x18, 0x1E, 0x29, 0x33, 0x55, 0x65] := by
  simp only [decodeF]; split_ifs <;> simp_all

/-- The six classes of R96 in the fields of the word: a family, with what its rows leave of the word, `n` or `kk`. -/
theorem decode_eq_none {w : Word} : decode w = none ↔
    (opField w = 0x0 ∧ w.toNat ≠ 0x00E0 ∧ w.toNat ≠ 0x00EE) ∨
    (opField w = 0x5 ∧ (nField w).val ≠ 0) ∨
    (opField w = 0x8 ∧ (nField w).val ∈ [0x8, 0x9, 0xA, 0xB, 0xC, 0xD, 0xF]) ∨
    (opField w = 0x9 ∧ (nField w).val ≠ 0) ∨
    (opField w = 0xE ∧ (kkField w).toNat ∉ [0x9E, 0xA1]) ∨
    (opField w = 0xF ∧ (kkField w).toNat ∉ [0x07, 0x0A, 0x15, 0x18, 0x1E, 0x29, 0x33, 0x55, 0x65]) := by
  unfold decode
  split
  case h_1 hop => simp [hop, decode0_eq_none]
  case h_6 hop | h_10 hop => simp [hop]
  case h_9 hop => simp only [hop, decode8_eq_none]; simp
  case h_15 hop => simp only [hop, decodeE_eq_none]; simp
  case h_16 hop => simp only [hop, decodeF_eq_none]; simp
  case h_17 =>
    have hop := opField_lt w
    grind
  case h_2 hop | h_3 hop | h_4 hop | h_5 hop | h_7 hop | h_8 hop | h_11 hop | h_12 hop | h_13 hop | h_14 hop => simp [hop]

/-! ### The fields by shift and mask (R91) -/

theorem toNat_shiftRight_12 (w : Word) : (w >>> 12).toNat = opField w := by
  have := w.isLt
  simp only [BitVec.toNat_ushiftRight, Nat.shiftRight_eq_div_pow, opField, slice]
  omega

theorem toNat_and_F (w : Word) : (w &&& 0xF).toNat = (nField w).val := by
  have h := and_mask w.toNat 0 4
  simpa [BitVec.toNat_and, nField, slice] using h

theorem toNat_and_FF (w : Word) : (w &&& 0xFF).toNat = (kkField w).toNat := by
  have h := and_mask w.toNat 0 8
  simpa [BitVec.toNat_and, kkField, slice] using h

/-- Settles O5: shift and mask read the fields of `decode_eq_none`, compared as numbers. -/
theorem illegalSpaceIsSixClasses : Obligations.IllegalSpaceIsSixClasses := by
  intro w
  simp only [decode_eq_none, ← BitVec.toNat_inj, toNat_shiftRight_12, toNat_and_F, toNat_and_FF, List.mem_cons,
    List.not_mem_nil, ne_eq]
  exact Iff.rfl

/-! ### The opcode table (R95) -/

/-- Two rows differ in a bit that both check. -/
theorem rows_disjoint : ∀ r ∈ rows, ∀ r' ∈ rows, r.pattern &&& r'.mask = r'.pattern &&& r.mask → r = r' := by decide

/-- No word selects two rows (R94). -/
theorem eq_of_selects {r r' : Row} {w : Word} (hr : r ∈ rows) (hr' : r' ∈ rows) (h : r.selects w = true)
    (h' : r'.selects w = true) : r = r' := by
  rw [Row.selects, beq_iff_eq] at h h'
  apply rows_disjoint r hr r' hr'
  rw [← h, ← h', BitVec.and_assoc, BitVec.and_assoc, BitVec.and_comm r.mask]

open Laws.TableRow in
/-- Every instruction's word selects the row with its mnemonic (R95): the per-instruction laws together. -/
theorem encode_selects_row : ∀ i : Instr, Statement i
  | .cls => cls | .ret => ret | .jp nnn => jp nnn | .call nnn => call nnn | .seImm x kk => seImm x kk
  | .sneImm x kk => sneImm x kk | .seReg x y => seReg x y | .ldImm x kk => ldImm x kk
  | .addImm x kk => addImm x kk | .ldReg x y => ldReg x y | .orReg x y => orReg x y
  | .andReg x y => andReg x y | .xorReg x y => xorReg x y | .addReg x y => addReg x y | .sub x y => sub x y
  | .shr x y => shr x y | .subn x y => subn x y | .shl x y => shl x y | .sneReg x y => sneReg x y
  | .ldI nnn => ldI nnn | .jpV0 nnn => jpV0 nnn | .rnd x kk => rnd x kk | .drw x y n => drw x y n
  | .skp x => skp x | .sknp x => sknp x | .ldVxDt x => ldVxDt x | .ldVxK x => ldVxK x | .ldDtVx x => ldDtVx x
  | .ldStVx x => ldStVx x | .addI x => addI x | .ldF x => ldF x | .ldB x => ldB x | .ldMemVx x => ldMemVx x
  | .ldVxMem x => ldVxMem x

/-- A word that decodes selects the row of its instruction. -/
theorem decode_selects_row {w : Word} {i : Instr} (h : decode w = some i) :
    ∃ r ∈ rows, r.mnemonic = i.mnemonic ∧ r.selects w = true :=
  encode_of_decode h ▸ encode_selects_row i

/-- No refused word selects a row: the row fixes the family and all that its illegal class is told by (R96). -/
theorem not_selects_of_decode_eq_none {w : Word} (hd : decode w = none) : ∀ r ∈ rows, ¬ r.selects w = true := by
  have hw := toNat_eq_xkk w
  simp only [decode_eq_none, List.mem_cons, List.not_mem_nil, or_false] at hd
  simp only [rows, List.cons_append, List.nil_append, List.forall_mem_cons, List.not_mem_nil, false_imp_iff, implies_true,
    and_true, selects_F000, selects_F00F, selects_F0FF, selects_FFFF, BitVec.toNat_ofNat]
  and_intros
  all_goals omega

/-- A word that selects a row decodes to the instruction of that row. -/
theorem decode_of_selects {r : Row} {w : Word} (hr : r ∈ rows) (h : r.selects w = true) :
    ∃ i, decode w = some i ∧ i.mnemonic = r.mnemonic := by
  obtain ⟨i, hi⟩ := Option.ne_none_iff_exists'.mp fun hd => not_selects_of_decode_eq_none hd r hr h
  obtain ⟨r', hr', hm, h'⟩ := decode_selects_row hi
  exact ⟨i, hi, eq_of_selects hr hr' h h' ▸ hm.symm⟩

/-- The refused words are exactly the ill-formed ones (R96). -/
theorem decode_eq_none_iff_wellFormedWord (w : Word) : decode w = none ↔ wellFormedWord w = false := by
  rw [wellFormedWord, List.any_eq_false]
  constructor
  · exact not_selects_of_decode_eq_none
  · intro h
    rw [Option.eq_none_iff_forall_ne_some]
    intro i hi
    obtain ⟨r, hr, -, hsel⟩ := decode_selects_row hi
    exact h r hr hsel

/-- Settles O4: rows are disjoint, a selected row is the one of the instruction decoded, and the refused words select none. -/
theorem decodeFollowsOpcodeTable : Obligations.DecodeFollowsOpcodeTable :=
  fun w => ⟨fun _ hr _ hr' => eq_of_selects hr hr', fun _ => decode_of_selects, decode_eq_none_iff_wellFormedWord w⟩

/-- Settles O1 by running the decoder on the seventeen words. -/
theorem specWordsDecode : Obligations.SpecWordsDecode := by
  unfold Obligations.SpecWordsDecode
  decide

end Sys2Proof

namespace Sys2Proof.Machine

/-- Settles O9: the decoder's refusal is STEP's fault, and two zero bytes are the word 0x0000 of family 0x0 (R97). -/
theorem illegalWordFault : Obligations.IllegalWordFault := by
  intro s r hc hpc
  constructor
  · rintro _ rfl hd
    exact stepCommand_fault hc (State.nextInstr_of_illegal hpc hd) r
  · intro hhi hlo
    have hw : wordOfBytes (s.readMem s.pc.toNat) (s.readMem (s.pc.toNat + 1)) = 0 := by rw [hhi, hlo]; rfl
    have hd : decode 0 = none := by decide
    have hn := State.nextInstr_of_illegal hpc (hw ▸ hd)
    exact stepCommand_fault hc (hw ▸ hn) r

end Sys2Proof.Machine
end

section
/-! PROOFS. The jumps, the register skips, the call and the return (40_control_flow.md R120 to R129). -/

namespace Sys2Proof.Machine

/-! ### Frames -/

/-- A state that may differ from `s` in the pc, KEY_WAIT and the call stack keeps all else. -/
theorem frame_of_stackChange {s t : State}
    (h : t = { s with pc := t.pc, keyWait := t.keyWait, sp := t.sp, stack := t.stack }) : Frame { stack := true } s t := by
  rw [h]
  exact ⟨fun _ _ => rfl, fun _ => rfl, nofun, fun _ => rfl, fun _ => rfl, fun _ _ _ => rfl, fun _ _ => rfl, fun _ => rfl,
    ⟨rfl, rfl, rfl⟩, rfl, ⟨rfl, rfl, rfl⟩⟩

/-- A state that may differ from `s` in the pc and KEY_WAIT keeps all else. -/
theorem frame_of_pcChange {s t : State} (h : t = { s with pc := t.pc, keyWait := t.keyWait }) : Frame { } s t :=
  { frame_of_stackChange (by rw [h]) with stack := fun _ => by rw [h]; exact ⟨rfl, fun _ => rfl⟩ }

/-! ### Moves of the pc -/

theorem movesPc_jump (s : State) (a : Word) : MovesPc (.next (s.advance.jump a)) s a :=
  ⟨_, rfl, rfl, rfl, frame_of_pcChange rfl⟩

/-- A skip adds 2 to the pc that the fetch has already advanced by 2 (R25, R121). -/
theorem movesPc_skipIf (s : State) (c : Bool) :
    MovesPc (.next (s.advance.skipIf c)) s (if c then s.pc + 4 else s.pc + 2) := by
  refine ⟨_, rfl, ?_, rfl, frame_of_pcChange rfl⟩
  rw [State.skipIf_pc, State.advance_pc, show s.pc + 2 + 2 = s.pc + 4 from BitVec.add_assoc s.pc 2 2]

theorem movesPc_skipIf_beq (s : State) (a b : Byte) :
    MovesPc (.next (s.advance.skipIf (a == b))) s (if a = b then s.pc + 4 else s.pc + 2) := by
  simpa only [beq_iff_eq] using movesPc_skipIf s (a == b)

theorem movesPc_skipIf_bne (s : State) (a b : Byte) :
    MovesPc (.next (s.advance.skipIf (a != b))) s (if a = b then s.pc + 2 else s.pc + 4) := by
  simpa only [bne_iff_ne, ite_not] using movesPc_skipIf s (a != b)

/-- The sum of Bnnn is the exact sum, mod 2^16 (R129). -/
theorem zext_add_zext (b : Byte) (a : Addr) : b.zext + a.zext = BitVec.ofNat 16 (b.toNat + a.toNat) := by
  rw [BitVec.ofNat_add, BitVec.ofNat_toNat, BitVec.ofNat_toNat]
  rfl

/-! ### The obligations -/

/-- Settles O27: on each side of the bound the meaning is known, and a push writes one entry of the stack. -/
theorem callPushesAndJumps : Obligations.CallPushesAndJumps := by
  intro s nnn
  constructor
  · intro h
    refine ⟨_, exec_call_of_lt nnn h, rfl, rfl, ?_, fun j hj => ?_, rfl, frame_of_stackChange rfl⟩
    · exact Vector.getElem_set_self h
    · exact Vector.getElem_set_ne h j.isLt hj.symm
  · exact exec_call_of_full nnn

/-- Settles O28: on each side of the bound the meaning is known, and a pop moves only SP. -/
theorem retPopsThePc : Obligations.RetPopsThePc := by
  intro s
  constructor
  · intro h
    exact ⟨_, exec_ret_of_pos h, rfl, rfl, fun _ => rfl, rfl, frame_of_stackChange rfl⟩
  · exact exec_ret_of_empty

/-- Settles O25: both are a jump, and the target of Bnnn is the exact sum mod 2^16. -/
theorem jumpsSetThePc : Obligations.JumpsSetThePc := by
  intro s nnn
  constructor
  · exact movesPc_jump s nnn.zext
  · rw [← zext_add_zext]
    exact movesPc_jump s _

/-- Settles O26: two skips on an equality and two on its negation. -/
theorem registerSkips : Obligations.RegisterSkips := by
  intro s x y kk
  refine ⟨?_, ?_, ?_, ?_⟩
  · exact movesPc_skipIf_beq s (s.readV x) kk
  · exact movesPc_skipIf_bne s (s.readV x) kk
  · exact movesPc_skipIf_beq s (s.readV x) (s.readV y)
  · exact movesPc_skipIf_bne s (s.readV x) (s.readV y)

end Sys2Proof.Machine
end

section
/-! PROOFS. The ALU: results in `V[x]`, the flag in VF, and the random byte (41_alu.md R140 to R153). -/

namespace Sys2Proof.Machine

/-! ### What a result and a flag leave unchanged (R140) -/

/-- A state that may differ from `s` in the pc, KEY_WAIT and the registers that `w` names keeps all else. -/
theorem frame_of_regChange {s t : State} {w : Reg → Bool}
    (h : t = { s with v := t.v, pc := t.pc, keyWait := t.keyWait }) (hv : ∀ r, w r = false → t.readV r = s.readV r) :
    Frame { v := w } s t :=
  { frame_of_pcChange (s := s.withV t.v) h with v := hv }

theorem writesReg_writeV (s : State) (x : Reg) (b : Byte) : WritesReg (.next (s.advance.writeV x b)) s x b :=
  ⟨_, rfl, State.readV_writeV_same .., rfl, rfl,
    frame_of_regChange rfl fun _ hr => State.readV_writeV_other (beq_eq_false_iff_ne.mp hr)⟩

theorem writesRegAndFlag_writeAlu (s : State) (x : Reg) (b : Byte) (f : Bool) :
    WritesRegAndFlag (.next (s.writeAlu x b f)) s x b f := by
  refine ⟨_, rfl, fun hx => ?_, ?_, rfl, rfl, frame_of_regChange rfl fun r hr => ?_⟩
  · rw [State.readV_writeAlu, if_neg hx, if_pos rfl]
  · rw [State.readV_writeAlu, if_pos rfl, flagByte]
  · obtain ⟨hrx, hrf⟩ : r ≠ x ∧ r ≠ Reg.vf := by simpa using hr
    rw [State.readV_writeAlu, if_neg hrf, if_neg hrx]

/-! ### Results and flags in exact arithmetic (R147 to R151) -/

/-- Subtraction of bytes is the exact difference, mod 2^8 (R148, R150). -/
theorem sub_eq_ofInt (a b : Byte) : a - b = BitVec.ofInt 8 (a.toNat - b.toNat : Int) := by
  rw [Int.sub_eq_add_neg, BitVec.ofInt_add, BitVec.ofInt_neg, BitVec.ofInt_natCast, BitVec.ofInt_natCast,
    BitVec.ofNat_toNat, BitVec.ofNat_toNat, BitVec.setWidth_eq, BitVec.setWidth_eq, BitVec.sub_eq_add_neg]

/-- A shift right by one halves (R149). -/
theorem shiftRight_one_eq_ofNat (a : Byte) : a >>> 1 = BitVec.ofNat 8 (a.toNat / 2) := by
  apply BitVec.eq_of_toNat_eq
  rw [BitVec.toNat_ushiftRight, BitVec.toNat_ofNat, Nat.shiftRight_eq_div_pow]
  omega

/-- A shift left by one doubles, mod 2^8 (R151). -/
theorem shiftLeft_one_eq_ofNat (a : Byte) : a <<< 1 = BitVec.ofNat 8 (a.toNat * 2) := by
  apply BitVec.eq_of_toNat_eq
  rw [BitVec.toNat_shiftLeft, BitVec.toNat_ofNat, Nat.shiftLeft_eq, pow_one]

/-- The bit shifted out to the right tells an odd number (R149). -/
theorem shiftedOutRight_eq (a : Byte) : shiftedOutRight a = decide (a.toNat % 2 = 1) := Nat.testBit_zero a.toNat

/-- The bit shifted out to the left tells a number from 0x80 up (R151). -/
theorem shiftedOutLeft_eq (a : Byte) : shiftedOutLeft a = decide (0x80 ≤ a.toNat) := BitVec.msb_eq_decide a

theorem writesRegAndFlag_execShrWith (p : ShiftSrc) (x y : Reg) (s : State) :
    WritesRegAndFlag (execShrWith p x y s) s x (BitVec.ofNat 8 ((s.shiftOperand p x y).toNat / 2))
      (decide ((s.shiftOperand p x y).toNat % 2 = 1)) := by
  rw [← shiftRight_one_eq_ofNat, ← shiftedOutRight_eq]
  exact writesRegAndFlag_writeAlu s x _ _

theorem writesRegAndFlag_execShlWith (p : ShiftSrc) (x y : Reg) (s : State) :
    WritesRegAndFlag (execShlWith p x y s) s x (BitVec.ofNat 8 ((s.shiftOperand p x y).toNat * 2))
      (decide (0x80 ≤ (s.shiftOperand p x y).toNat)) := by
  rw [← shiftLeft_one_eq_ofNat, ← shiftedOutLeft_eq]
  exact writesRegAndFlag_writeAlu s x _ _

/-! ### The random byte (R52, R152) -/

/-- A fetched word that is an instruction's own is that instruction (R94, R220). -/
theorem State.nextInstr_of_fetchWord {s : State} {i : Instr} (h : s.fetchWord = some (encode i)) :
    s.nextInstr = .ok i := by
  simp only [State.nextInstr, h, decode_encode]

/-! ### The obligations -/

/-- Settles O31: each is a write of the result and then of the flag, and the byte operations are exact ones, mod 2^8. -/
theorem addAndSubtractWithFlag : Obligations.AddAndSubtractWithFlag := by
  intro s x y
  refine ⟨?_, ?_, ?_⟩
  · rw [← BitVec.add_def]
    exact writesRegAndFlag_writeAlu s x _ _
  · rw [← sub_eq_ofInt]
    exact writesRegAndFlag_writeAlu s x _ _
  · rw [← sub_eq_ofInt]
    exact writesRegAndFlag_writeAlu s x _ _

/-- Settles O32: the shifts for `SHIFT_SRC = Vx`, the parameter's value, and for `Vy`. -/
theorem shiftsWithFlag : Obligations.ShiftsWithFlag := by
  intro s x y
  refine ⟨?_, ?_, ?_, ?_⟩
  · exact writesRegAndFlag_execShrWith .vx x y s
  · exact writesRegAndFlag_execShlWith .vx x y s
  · exact writesRegAndFlag_execShrWith .vy x y s
  · exact writesRegAndFlag_execShlWith .vy x y s

/-- Settles O33: Cxkk writes one register, and STEP runs it from the state that has latched `r`. -/
theorem randomAndOfEveryDraw : Obligations.RandomAndOfEveryDraw := by
  constructor
  · intro s x kk
    exact writesReg_writeV s x (s.rnd &&& kk)
  · intro s x kk r hc hf
    obtain ⟨t, he, hx, -, -, hframe⟩ := writesReg_writeV (s.latchRnd r) x (r &&& kk)
    have hstep := stepCommand_instr hc (State.nextInstr_of_fetchWord hf) r
    exact ⟨t, hstep.trans he, hx, hframe.latch.1.trans hc⟩

/-- Settles O30: each of the six is a write of its result. -/
theorem registerResultsWithoutFlag : Obligations.RegisterResultsWithoutFlag := by
  intro s x y kk
  refine ⟨?_, ?_, ?_, ?_, ?_, ?_⟩
  · exact writesReg_writeV s x kk
  · rw [← BitVec.add_def]
    exact writesReg_writeV s x (s.readV x + kk)
  · exact writesReg_writeV s x (s.readV y)
  · exact writesReg_writeV s x (s.readV x ||| s.readV y)
  · exact writesReg_writeV s x (s.readV x &&& s.readV y)
  · exact writesReg_writeV s x (s.readV x ^^^ s.readV y)

end Sys2Proof.Machine
end

section
/-! PROOFS. The address register and memory through it: Annn, Fx1E, Fx29, Fx33, Fx55 and Fx65 (42_index_memory.md R170 to
R176, 20_memory.md R62 and R72). -/

namespace Sys2Proof.Machine

/-! ### Frames -/

/-- A state that may differ from `s` in the pc, KEY_WAIT and the bytes that `w` names keeps all else. -/
theorem frame_of_memChange {s t : State} {w : Nat → Bool}
    (h : t = { s with mem := t.mem, pc := t.pc, keyWait := t.keyWait })
    (hm : ∀ a, w a = false → t.readMem a = s.readMem a) : Frame { mem := w } s t :=
  { frame_of_pcChange (s := s.withMem t.mem) h with mem := hm }

/-- A write of I after a change adds I to what the frame lets change. -/
theorem Frame.writeI {c : Changes} {s t : State} (h : Frame c s t) (w : Word) :
    Frame { c with i := true } s (t.writeI w) :=
  { h with i := nofun }

/-- When I has kept its value the frame need not let it change. -/
theorem Frame.of_i_eq {c : Changes} {s t : State} (h : Frame { c with i := true } s t) (hi : t.i = s.i) : Frame c s t :=
  { h with i := fun _ => hi }

/-! ### Writes of I (R170 to R172) -/

theorem writesI_writeI (s : State) (w : Word) : WritesI (.next (s.advance.writeI w)) s w :=
  ⟨_, rfl, rfl, rfl, rfl, (frame_of_pcChange rfl).writeI w⟩

/-- The sum of Fx1E is the exact sum, mod 2^16 (R171). -/
theorem add_zext (w : Word) (b : Byte) : w + b.zext = BitVec.ofNat 16 (w.toNat + b.toNat) := by
  rw [BitVec.ofNat_add, BitVec.ofNat_toNat, BitVec.ofNat_toNat, BitVec.setWidth_eq]
  rfl

/-- Fx29 computes when the value is a digit or FONT_OOR says so (R172). -/
theorem writesI_execLdFWith {p : FontOor} {x : Reg} {s : State} (h : ¬ (0xF < (s.readV x).toNat ∧ p = .fault)) :
    WritesI (execLdFWith p x s) s (BitVec.ofNat 16 ((s.readV x).toNat * 5)) := by
  obtain ⟨hf, -⟩ | ⟨-, he⟩ := execLdFWith_cases p x s
  · exact absurd hf h
  · rw [he]
    exact writesI_writeI s (fontAddress (s.readV x))

/-! ### The decimal digits (R173) -/

/-- Each digit fits a byte, and the three stand at consecutive addresses, hundreds first. -/
theorem toNat_read_writeList_digits (v : Byte) (a : Nat) (m : Memory) :
    (Memory.read a (Memory.writeList a (digits v) m)).toNat = v.toNat / 100 ∧
    (Memory.read (a + 1) (Memory.writeList a (digits v) m)).toNat = v.toNat / 10 % 10 ∧
    (Memory.read (a + 2) (Memory.writeList a (digits v) m)).toNat = v.toNat % 10 := by
  have hv := v.isLt
  have hhundreds : v.toNat / 100 < 256 := by omega
  have htens : v.toNat / 10 % 10 < 256 := by omega
  have hones : v.toNat % 10 < 256 := by omega
  simp [Memory.read_writeList, digits, hhundreds, htens, hones]

/-! ### The register ranges (R174, R175) -/

/-- Fx55 in bounds, for each value of LDST_INC_I: the bytes stored, and what else may change. -/
theorem execLdMemVxWith_of_le (inc : Bool) {x : Reg} {s : State} (h : s.i.toNat + x.val ≤ 0xFFF) :
    ∃ t, execLdMemVxWith inc x s = .next t ∧ (∀ k : Reg, k ≤ x → t.readMem (s.i.toNat + k.val) = s.readV k) ∧
      t.i = s.rangeI inc x ∧ t.pc = s.pc + 2 ∧ t.keyWait = false ∧
      Frame { i := true, mem := fun a => decide (s.i.toNat ≤ a ∧ a < s.i.toNat + x.val + 1) } s t := by
  obtain ⟨hgt, -⟩ | ⟨-, he⟩ := execLdMemVxWith_cases inc x s
  · omega
  refine ⟨_, he, fun k hk => ?_, rfl, rfl, rfl, (frame_of_memChange rfl fun a ha => ?_).writeI _⟩
  · exact State.read_storeRange_of_lt (Nat.lt_succ_of_le hk) x.isLt
  · exact (s.read_storeRange (x.val + 1) a).trans (if_neg (of_decide_eq_false ha))

/-- Fx65 in bounds, for each value of LDST_INC_I: the registers loaded, and what else may change. -/
theorem execLdVxMemWith_of_le (inc : Bool) {x : Reg} {s : State} (h : s.i.toNat + x.val ≤ 0xFFF) :
    ∃ t, execLdVxMemWith inc x s = .next t ∧ (∀ k : Reg, k ≤ x → t.readV k = s.readMem (s.i.toNat + k.val)) ∧
      t.i = s.rangeI inc x ∧ t.pc = s.pc + 2 ∧ t.keyWait = false ∧
      Frame { v := fun r => decide (r ≤ x), i := true } s t := by
  obtain ⟨hgt, -⟩ | ⟨-, he⟩ := execLdVxMemWith_cases inc x s
  · omega
  refine ⟨_, he, fun k hk => ?_, rfl, rfl, rfl, (frame_of_regChange rfl fun k hk => ?_).writeI _⟩
  · exact (s.getElem_loadRange (x.val + 1) k.val k.isLt).trans (if_pos (Nat.lt_succ_of_le hk))
  · have hxk : ¬ k.val < x.val + 1 := fun hlt => of_decide_eq_false hk (Nat.le_of_lt_succ hlt)
    exact (s.getElem_loadRange (x.val + 1) k.val k.isLt).trans (if_neg hxk)

/-- Fx55 out of bounds, for each value of LDST_INC_I. -/
theorem execLdMemVxWith_of_gt (inc : Bool) {x : Reg} {s : State} (h : 0xFFF < s.i.toNat + x.val) :
    execLdMemVxWith inc x s = .next (s.raise .dataOutOfBounds (encode (.ldMemVx x))) := by
  obtain ⟨-, he⟩ | ⟨hle, -⟩ := execLdMemVxWith_cases inc x s
  · exact he
  · omega

/-- Fx65 out of bounds, for each value of LDST_INC_I. -/
theorem execLdVxMemWith_of_gt (inc : Bool) {x : Reg} {s : State} (h : 0xFFF < s.i.toNat + x.val) :
    execLdVxMemWith inc x s = .next (s.raise .dataOutOfBounds (encode (.ldVxMem x))) := by
  obtain ⟨-, he⟩ | ⟨hle, -⟩ := execLdVxMemWith_cases inc x s
  · exact he
  · omega

/-! ### The obligations -/

/-- Settles O34: both are a write of I, and the sum of Fx1E is the exact sum mod 2^16. -/
theorem addressRegisterWrites : Obligations.AddressRegisterWrites := by
  intro s nnn x
  constructor
  · exact writesI_writeI s nnn.zext
  · rw [← add_zext]
    exact writesI_writeI s _

/-- Settles O35: the value is a digit, or it is not and FONT_OOR decides. -/
theorem fontAddressOfDigit : Obligations.FontAddressOfDigit := by
  intro s x
  refine ⟨fun hle => ?_, fun hgt => ?_, ?_⟩
  · exact writesI_execLdFWith (p := fontOor) (by omega)
  · obtain ⟨-, he⟩ | ⟨hne, -⟩ := execLdFWith_cases fontOor x s
    · exact he
    · exact absurd ⟨hgt, rfl⟩ hne
  · exact writesI_execLdFWith nofun

/-- Settles O36: each side of the bound is one branch of Fx33, and the one in bounds writes the three digits. -/
theorem bcdStoresThreeDigits : Obligations.BcdStoresThreeDigits := by
  intro s x
  obtain ⟨hgt, he⟩ | ⟨hle, he⟩ := execLdB_cases x s
  · exact ⟨fun hle => by omega, fun _ => he⟩
  · refine ⟨fun _ => ?_, fun hgt => by omega⟩
    obtain ⟨hhundreds, htens, hones⟩ := toNat_read_writeList_digits (s.readV x) s.i.toNat s.mem
    refine ⟨_, he, hhundreds, htens, hones, rfl, rfl, frame_of_memChange rfl fun a ha => ?_⟩
    exact (Memory.read_writeList (digits (s.readV x)) s.i.toNat a s.mem).trans (dif_neg (of_decide_eq_false ha))

/-- Settles O37: the store for LDST_INC_I = false, the parameter's value, where I is kept, and for true. -/
theorem rangeStoreWritesRegisters : Obligations.RangeStoreWritesRegisters := by
  intro s x
  constructor
  · intro hle
    obtain ⟨t, he, hm, hi, hpc, hwait, hframe⟩ := execLdMemVxWith_of_le ldstIncI hle
    exact ⟨⟨t, he, hm, hpc, hwait, hframe.of_i_eq hi⟩, execLdMemVxWith_of_le true hle⟩
  · intro hgt
    have hfault : TakesFault (.ldMemVx x) s .dataOutOfBounds := execLdMemVxWith_of_gt ldstIncI hgt
    exact ⟨hfault, (execLdMemVxWith_of_gt true hgt).trans hfault.symm⟩

/-- Settles O38: the load for LDST_INC_I = false, the parameter's value, where I is kept, and for true. -/
theorem rangeLoadReadsRegisters : Obligations.RangeLoadReadsRegisters := by
  intro s x
  constructor
  · intro hle
    obtain ⟨t, he, hv, hi, hpc, hwait, hframe⟩ := execLdVxMemWith_of_le ldstIncI hle
    exact ⟨⟨t, he, hv, hpc, hwait, hframe.of_i_eq hi⟩, execLdVxMemWith_of_le true hle⟩
  · intro hgt
    have hfault : TakesFault (.ldVxMem x) s .dataOutOfBounds := execLdVxMemWith_of_gt ldstIncI hgt
    exact ⟨hfault, (execLdVxMemWith_of_gt true hgt).trans hfault.symm⟩

/-- Settles O39: the Fx55 keeps I, so the Fx65 is in bounds too and reads the bytes that the Fx55 has stored. -/
theorem storeThenLoadRestoresRegisters : Obligations.StoreThenLoadRestoresRegisters := by
  intro s x w hle
  obtain ⟨t, hstore, hm, hi, -⟩ := execLdMemVxWith_of_le ldstIncI hle
  have hti : (t.withV w).i = s.i := hi
  obtain ⟨u, hload, hv, -, -, -, hframe⟩ := execLdVxMemWith_of_le ldstIncI (hti ▸ hle)
  refine ⟨t, u, hstore, hload, fun k hk => ?_, fun k hk => ?_⟩
  · rw [hv k hk, hti, State.readMem_withV, hm k hk]
  · exact hframe.v k (decide_eq_false (not_le.mpr hk))

end Sys2Proof.Machine
end

section
/-! PROOFS. The keys and the timers: Ex9E, ExA1, Fx0A, Fx07, Fx15, Fx18 and TICK (43_timers_keys.md R190 to R200). -/

namespace Sys2Proof.Machine

/-! ### The key skips (R190 to R192) -/

theorem exec_skp_of_lt {x : Reg} {s : State} (h : (s.readV x).toNat < 16) :
    exec (.skp x) s = .next (s.advance.skipIf s.key[(s.readV x).toNat]) := by
  obtain ⟨hgt, -⟩ | ⟨_, he⟩ := execSkp_cases x s
  · omega
  · exact he

theorem exec_sknp_of_lt {x : Reg} {s : State} (h : (s.readV x).toNat < 16) :
    exec (.sknp x) s = .next (s.advance.skipIf (!s.key[(s.readV x).toNat])) := by
  obtain ⟨hgt, -⟩ | ⟨_, he⟩ := execSknp_cases x s
  · omega
  · exact he

theorem skp_takesFault_of_gt {x : Reg} {s : State} (h : 0xF < (s.readV x).toNat) :
    TakesFault (.skp x) s .keyIndexOutOfRange := by
  obtain ⟨-, he⟩ | ⟨hlt, -⟩ := execSkp_cases x s
  · exact he
  · omega

theorem sknp_takesFault_of_gt {x : Reg} {s : State} (h : 0xF < (s.readV x).toNat) :
    TakesFault (.sknp x) s .keyIndexOutOfRange := by
  obtain ⟨-, he⟩ | ⟨hlt, -⟩ := execSknp_cases x s
  · exact he
  · omega

/-- A skip on the negation of a condition takes the two targets the other way round. -/
theorem movesPc_skipIf_not (s : State) (c : Bool) :
    MovesPc (.next (s.advance.skipIf (!c))) s (if c then s.pc + 2 else s.pc + 4) := by
  simpa only [Bool.not_eq_true', ← Bool.not_eq_true, ite_not] using movesPc_skipIf s (!c)

/-! ### Reading a key (R194) -/

theorem exec_ldVxK_of_lowest {x : Reg} {s : State} {k : Fin 16} (hk : s.key[k.val] = true)
    (hlow : ∀ j : Fin 16, j < k → s.key[j.val] = false) :
    exec (.ldVxK x) s = .next (s.advance.writeV x (BitVec.ofNat 8 k.val)) := by
  have hfirst : s.firstKey = some k.val := (s.firstKey_eq_some k).mpr ⟨hk, hlow⟩
  change execLdVxK x s = _
  rw [execLdVxK, hfirst]

theorem exec_ldVxK_of_none {x : Reg} {s : State} (hnone : ∀ k : Fin 16, s.key[k.val] = false) :
    exec (.ldVxK x) s = .next s.waitForKey := by
  have hfirst : s.firstKey = none := s.firstKey_eq_none.mpr hnone
  change execLdVxK x s = _
  rw [execLdVxK, hfirst]

/-! ### Writes of the timers (R195, R196) -/

/-- A write of DT after a change adds DT to what the frame lets change. -/
theorem Frame.writeDt {c : Changes} {s t : State} (h : Frame c s t) (b : Byte) :
    Frame { c with dt := true } s (t.writeDt b) :=
  { h with dt := nofun }

/-- A write of ST after a change adds ST to what the frame lets change. -/
theorem Frame.writeSt {c : Changes} {s t : State} (h : Frame c s t) (b : Byte) :
    Frame { c with st := true } s (t.writeSt b) :=
  { h with st := nofun }

/-! ### The obligations -/

/-- Settles O41: the value of `V[x]` names a key and both skip on it, or it does not and both take the fault. -/
theorem keySkips : Obligations.KeySkips := by
  intro s x
  refine ⟨fun h => ⟨?_, ?_⟩, fun h => ⟨skp_takesFault_of_gt h, sknp_takesFault_of_gt h⟩⟩
  · rw [exec_skp_of_lt h]
    exact movesPc_skipIf s _
  · rw [exec_sknp_of_lt h]
    exact movesPc_skipIf_not s _

/-- Settles O42: the lowest pressed key is what the scan finds, and with none pressed only KEY_WAIT is written. -/
theorem keyReadOrWait : Obligations.KeyReadOrWait := by
  intro s x
  constructor
  · intro k hk hlow
    rw [exec_ldVxK_of_lowest hk hlow]
    exact writesReg_writeV s x _
  · intro hnone
    exact ⟨_, exec_ldVxK_of_none hnone, rfl, rfl, frame_of_pcChange rfl⟩

/-- Settles O43: Fx07 is a write of a register, Fx15 of DT and Fx18 of ST. -/
theorem timerInstructions : Obligations.TimerInstructions := by
  intro s x
  refine ⟨?_, ?_, ?_⟩
  · exact writesReg_writeV s x s.dt
  · exact ⟨_, rfl, rfl, rfl, rfl, (frame_of_pcChange rfl).writeDt (s.readV x)⟩
  · exact ⟨_, rfl, rfl, rfl, rfl, (frame_of_pcChange rfl).writeSt (s.readV x)⟩

/-- Settles O44: TICK is one tick of each timer. -/
theorem tickCountsDownToZero : Obligations.TickCountsDownToZero := by
  intro s
  exact ⟨s.tick, rfl, tickTimer_toNat s.dt, tickTimer_toNat s.st, rfl⟩

end Sys2Proof.Machine
end

section
/-! PROOFS. The display: 00E0, Dxyn, and what reaches the framebuffer (44_display.md R210 to R213). -/

namespace Sys2Proof.Machine

/-! ### Frames -/

/-- A state that may differ from `s` in the pc, KEY_WAIT and the framebuffer keeps all else. -/
theorem frame_of_fbChange {s t : State} (h : t = { s with fb := t.fb, pc := t.pc, keyWait := t.keyWait }) :
    Frame { fb := true } s t :=
  { frame_of_pcChange (s := s.withFb t.fb) h with fb := nofun }

/-- A write of VF after a change adds VF to what the frame lets change. -/
theorem Frame.writeFlag {c : Changes} {s t : State} (h : Frame c s t) (f : Bool) :
    Frame { c with v := fun r => c.v r || r == Reg.vf } s (t.writeFlag f) :=
  { h with
    v := fun r hr => by
      obtain ⟨hc, hvf⟩ := Bool.or_eq_false_iff.mp hr
      exact (State.readV_writeV_other (beq_eq_false_iff_ne.mp hvf)).trans (h.v r hc) }

/-! ### The clear screen (R210, R260) -/

theorem State.cell_of_fb_eq_clearFb {s : State} (h : s.fb = clearFb) (X : Fin 64) (Y : Fin 32) : s.cell X Y = false := by
  simp [State.cell, h, clearFb]

/-! ### A completed Dxyn (R211, R212) -/

/-- The state that Dxyn leaves when it completes. -/
def State.drawn (s : State) (x y : Reg) (n : Fin 16) : State :=
  (s.advance.withFb (s.drawRows (s.readV x).toNat (s.readV y).toNat n.val).1).writeFlag
    (s.drawRows (s.readV x).toNat (s.readV y).toNat n.val).2

theorem exec_drw_of_inBounds {s : State} (x y : Reg) {n : Fin 16} (h : n.val = 0 ∨ s.i.toNat + (n.val - 1) ≤ 0xFFF) :
    exec (.drw x y n) s = .next (s.drawn x y n) := by
  obtain ⟨hout, -⟩ | ⟨-, he⟩ := execDrw_cases x y n s
  · omega
  · exact he

theorem drw_takesFault_of_outOfBounds {s : State} (x y : Reg) {n : Fin 16} (hpos : 0 < n.val)
    (h : 0xFFF < s.i.toNat + (n.val - 1)) : TakesFault (.drw x y n) s .dataOutOfBounds := by
  obtain ⟨-, he⟩ | ⟨hin, -⟩ := execDrw_cases x y n s
  · exact he
  · omega

/-- A Dxyn that latches no fault is in bounds and completes. -/
theorem eq_drawn_of_exec_drw {s t : State} {x y : Reg} {n : Fin 16} (hx : exec (.drw x y n) s = .next t)
    (hc : t.cause = 0) : t = s.drawn x y n := by
  obtain ⟨-, he⟩ | ⟨-, he⟩ := execDrw_cases x y n s
  · cases he.symm.trans hx
    exact absurd hc (Cause.code_ne_zero .dataOutOfBounds)
  · cases he.symm.trans hx
    rfl

section Drawn
variable {s : State} {x y : Reg} {n : Fin 16}

theorem State.frame_drawn : Frame { v := fun r => r == Reg.vf, fb := true } s (s.drawn x y n) :=
  (frame_of_fbChange rfl).writeFlag _

theorem State.readV_drawn_of_ne {r : Reg} (h : r ≠ Reg.vf) : (s.drawn x y n).readV r = s.readV r :=
  State.frame_drawn.v r (beq_eq_false_iff_ne.mpr h)

/-- The sprite is the same to see after a draw, which leaves I and memory alone. -/
theorem spriteCovers_drawn {x0 y0 m X Y : Nat} :
    SpriteCovers (s.drawn x y n) x0 y0 m X Y ↔ SpriteCovers s x0 y0 m X Y := Iff.rfl

/-- A sprite covers only cells of the screen, as each axis wraps (R211). -/
theorem lt_of_spriteCovers {x0 y0 m X Y : Nat} (h : SpriteCovers s x0 y0 m X Y) : X < 64 ∧ Y < 32 := by
  obtain ⟨r, -, c, -, -, rfl, rfl⟩ := h
  exact ⟨Nat.mod_lt _ (by decide), Nat.mod_lt _ (by decide)⟩

theorem State.cell_drawn {X : Fin 64} {Y : Fin 32} : (s.drawn x y n).cell X Y =
    (s.cell X Y ^^ decide (SpriteCovers s (s.readV x).toNat (s.readV y).toNat n.val X.val Y.val)) :=
  s.drawRows_cell _ _ n.val X.val Y.val n.isLt.le X.isLt Y.isLt

theorem State.cell_drawn_of_covers {X : Fin 64} {Y : Fin 32}
    (h : SpriteCovers s (s.readV x).toNat (s.readV y).toNat n.val X.val Y.val) :
    (s.drawn x y n).cell X Y = !s.cell X Y := by
  rw [State.cell_drawn, decide_eq_true h, Bool.xor_true]

theorem State.cell_drawn_of_not_covers {X : Fin 64} {Y : Fin 32}
    (h : ¬ SpriteCovers s (s.readV x).toNat (s.readV y).toNat n.val X.val Y.val) :
    (s.drawn x y n).cell X Y = s.cell X Y := by
  rw [State.cell_drawn, decide_eq_false h, Bool.xor_false]

/-- A second draw flips the same cells, as VF is no coordinate. -/
theorem State.cell_drawn_drawn (hx : x ≠ Reg.vf) (hy : y ≠ Reg.vf) (X : Fin 64) (Y : Fin 32) :
    ((s.drawn x y n).drawn x y n).cell X Y = s.cell X Y := by
  simp only [State.cell_drawn, State.readV_drawn_of_ne hx, State.readV_drawn_of_ne hy, spriteCovers_drawn]
  rw [Bool.xor_assoc, Bool.xor_self, Bool.xor_false]

theorem State.readV_vf_drawn : (s.drawn x y n).readV Reg.vf =
    flagByte (s.drawRows (s.readV x).toNat (s.readV y).toNat n.val).2 := State.readV_writeV_same ..

theorem State.readV_vf_drawn_of_lit
    (h : ∃ (X : Fin 64) (Y : Fin 32), SpriteCovers s (s.readV x).toNat (s.readV y).toNat n.val X.val Y.val ∧
      s.cell X Y = true) : (s.drawn x y n).readV Reg.vf = 1 := by
  obtain ⟨X, Y, hc, hl⟩ := h
  rw [State.readV_vf_drawn, (s.drawRows_collision _ _ _ n.isLt.le).mpr ⟨X.val, Y.val, X.isLt, Y.isLt, hc, hl⟩]
  rfl

theorem State.readV_vf_drawn_of_unlit
    (h : ∀ (X : Fin 64) (Y : Fin 32), SpriteCovers s (s.readV x).toNat (s.readV y).toNat n.val X.val Y.val →
      s.cell X Y = false) : (s.drawn x y n).readV Reg.vf = 0 := by
  have hno : ¬ (s.drawRows (s.readV x).toNat (s.readV y).toNat n.val).2 = true := by
    rw [s.drawRows_collision _ _ _ n.isLt.le]
    rintro ⟨X, Y, hX, hY, hc, hl⟩
    exact absurd hl (Bool.eq_false_iff.mp (h ⟨X, hX⟩ ⟨Y, hY⟩ hc))
  rw [State.readV_vf_drawn, Bool.eq_false_iff.mpr hno]
  rfl

end Drawn

/-! ### What reaches the framebuffer (R213) -/

theorem exec_keeps_fb {i : Instr} (s : State) (hcls : i ≠ .cls) (hdrw : ∀ x y n, i ≠ .drw x y n) :
    ∃ t, exec i s = .next t ∧ t.fb = s.fb := by
  cases i
  case cls => exact absurd rfl hcls
  case drw x y n => exact absurd rfl (hdrw x y n)
  case jp | jpV0 | seImm | sneImm | seReg | sneReg | ldImm | addImm | ldReg | orReg | andReg | xorReg | addReg | sub | shr
      | subn | shl | ldI | rnd | ldVxDt | ldDtVx | ldStVx | addI => exact ⟨_, rfl, rfl⟩
  case ret => obtain ⟨_, he⟩ | ⟨_, he⟩ := execRet_cases s <;> exact ⟨_, he, rfl⟩
  case call nnn => obtain ⟨_, he⟩ | ⟨_, he⟩ := execCall_cases nnn s <;> exact ⟨_, he, rfl⟩
  case skp x => obtain ⟨_, he⟩ | ⟨_, he⟩ := execSkp_cases x s <;> exact ⟨_, he, rfl⟩
  case sknp x => obtain ⟨_, he⟩ | ⟨_, he⟩ := execSknp_cases x s <;> exact ⟨_, he, rfl⟩
  case ldVxK x => obtain ⟨_, he⟩ | ⟨_, _, he⟩ := execLdVxK_cases x s <;> exact ⟨_, he, rfl⟩
  case ldF x => obtain ⟨_, he⟩ | ⟨_, he⟩ := execLdFWith_cases fontOor x s <;> exact ⟨_, he, rfl⟩
  case ldB x => obtain ⟨_, he⟩ | ⟨_, he⟩ := execLdB_cases x s <;> exact ⟨_, he, rfl⟩
  case ldMemVx x => obtain ⟨_, he⟩ | ⟨_, he⟩ := execLdMemVxWith_cases ldstIncI x s <;> exact ⟨_, he, rfl⟩
  case ldVxMem x => obtain ⟨_, he⟩ | ⟨_, he⟩ := execLdVxMemWith_cases ldstIncI x s <;> exact ⟨_, he, rfl⟩

theorem command_keeps_fb {c : Command} (s : State) (hstep : ∀ r, c ≠ .step r) (hreset : c ≠ .reset) :
    ∃ t, command c s = .next t ∧ t.fb = s.fb := by
  cases c with
  | step r => exact absurd rfl (hstep r)
  | tick => exact ⟨_, rfl, rfl⟩
  | setKey k p => exact ⟨_, rfl, rfl⟩
  | load bytes => exact ⟨_, rfl, s.load_fb bytes⟩
  | reset => exact absurd rfl hreset

theorem State.cell_congr {s t : State} (h : t.fb = s.fb) (X : Fin 64) (Y : Fin 32) : t.cell X Y = s.cell X Y := by
  rw [State.cell, h, State.cell]

/-! ### The obligations -/

/-- Settles O21: the framebuffer is kept whole by all but 00E0, Dxyn and RESET, cleared whole by 00E0 and RESET, and flipped
by Dxyn where the sprite covers it. -/
theorem framebufferWriters : Obligations.FramebufferWriters := by
  refine ⟨fun i s t hcls hdrw hx => ?_, fun c s t hstep hreset hx => ?_, fun s => ?_, fun s => ?_,
    fun s t x y n _ hx hc X Y => ?_⟩
  · obtain ⟨u, he, hfb⟩ := exec_keeps_fb s hcls hdrw
    cases he.symm.trans hx
    exact State.cell_congr hfb
  · obtain ⟨u, he, hfb⟩ := command_keeps_fb s hstep hreset
    cases he.symm.trans hx
    exact State.cell_congr hfb
  · exact ⟨_, rfl, State.cell_of_fb_eq_clearFb rfl⟩
  · exact ⟨_, rfl, State.cell_of_fb_eq_clearFb rfl⟩
  · obtain rfl := eq_drawn_of_exec_drw hx hc
    exact ⟨State.cell_drawn_of_covers, State.cell_drawn_of_not_covers⟩

/-- Settles O46: in bounds the draw is `State.drawn`, out of bounds it is the fault. -/
theorem drawSpriteXorsAndCollides : Obligations.DrawSpriteXorsAndCollides := by
  intro s x y n
  refine ⟨fun hin => ?_, drw_takesFault_of_outOfBounds x y⟩
  exact ⟨_, exec_drw_of_inBounds x y hin, fun X Y => ⟨State.cell_drawn_of_covers, State.cell_drawn_of_not_covers⟩,
    State.readV_vf_drawn_of_lit, State.readV_vf_drawn_of_unlit, rfl, rfl, State.frame_drawn⟩

/-- Settles O47: the second draw finds the same sprite at the same place, so it flips each cell back, and it collides where
the first draw has lit a cell. -/
theorem drawTwiceRestores : Obligations.DrawTwiceRestores := by
  intro s x y n hx hy hin
  refine ⟨_, _, exec_drw_of_inBounds x y hin, exec_drw_of_inBounds (s := s.drawn x y n) x y hin,
    State.cell_drawn_drawn hx hy, fun hclear hsprite => ⟨State.readV_vf_drawn_of_unlit fun X Y _ => hclear X Y, ?_⟩⟩
  obtain ⟨X, Y, hcov⟩ := hsprite
  obtain ⟨hX, hY⟩ := lt_of_spriteCovers hcov
  refine State.readV_vf_drawn_of_lit ⟨⟨X, hX⟩, ⟨Y, hY⟩, ?_, ?_⟩
  · rw [State.readV_drawn_of_ne hx, State.readV_drawn_of_ne hy]
    exact spriteCovers_drawn.mpr hcov
  · rw [State.cell_drawn_of_covers hcov, hclear]
    rfl

/-- Settles O45: 00E0 replaces the framebuffer by the clear one and moves the pc. -/
theorem clearScreen : Obligations.ClearScreen := by
  intro s
  exact ⟨_, rfl, State.cell_of_fb_eq_clearFb rfl, rfl, rfl, frame_of_fbChange rfl⟩

end Sys2Proof.Machine
end

section
/-! PROOFS. Faults and the halted machine: which word STEP latches, what an instruction may do to the latch, and the commands
while a fault is latched (60_exceptions.md R220 to R225). -/

namespace Sys2Proof.Machine

/-! ### The fault that STEP latches (R223, R224) -/

/-- No word is fetched at or above the bound (R63). -/
theorem State.fetchWord_of_ge {s : State} (h : 0xFFF ≤ s.pc.toNat) : s.fetchWord = none := if_neg (Nat.not_lt.mpr h)

/-- When STEP latches a fault it has done no more than latch it (R224), and the word latched is the fetched one, or 0 when the
fetch is what failed (R223). -/
theorem eq_raise_of_stepCommand {s t : State} {r : Byte} (hc : s.cause = 0) (hst : stepCommand r s = .next t)
    (ht : t.cause ≠ 0) : ∃ c w, t = (s.latchRnd r).raise c w ∧
      (s.fetchWord = some w ∨ (s.fetchWord = none ∧ c = .fetchOutOfBounds ∧ w = 0)) := by
  obtain ⟨hpc, hn⟩ | ⟨w, -, hf, -, hn⟩ | ⟨w, i, -, hf, hd, hn⟩ := s.nextInstr_cases
  · cases (stepCommand_fault hc hn r).symm.trans hst
    exact ⟨_, _, rfl, .inr ⟨State.fetchWord_of_ge hpc, rfl, rfl⟩⟩
  · cases (stepCommand_fault hc hn r).symm.trans hst
    exact ⟨_, _, rfl, .inl hf⟩
  · rw [stepCommand_instr hc hn r] at hst
    obtain ⟨c, -, he⟩ | ⟨u, he, hu⟩ := exec_cases i (s.latchRnd r)
    · cases he.symm.trans hst
      exact ⟨_, _, rfl, .inl (encode_of_decode hd ▸ hf)⟩
    · cases he.symm.trans hst
      exact absurd (hu.cause.trans hc) ht

/-! ### The obligations -/

/-- Settles O11: STEP faults by `State.raise` alone, at the fetch, the decoder or the instruction, whose encoding is the word
that was fetched. -/
theorem faultIsPrecise : Obligations.FaultIsPrecise := by
  intro s t r hc hst ht
  obtain ⟨c, w, rfl, hw⟩ := eq_raise_of_stepCommand hc hst ht
  refine ⟨rfl, hw.imp_right ?_⟩
  rintro ⟨hf, rfl, rfl⟩
  exact ⟨hf, rfl, rfl⟩

/-- Settles O12: the two outcomes of `exec_cases`, the second with the latch that `Completes` keeps. -/
theorem instructionsTakeOnlyTheirOwnFault : Obligations.InstructionsTakeOnlyTheirOwnFault := by
  intro i s
  obtain ⟨c, hown, he⟩ | ⟨t, he, ht⟩ := exec_cases i s
  · exact .inl ⟨c, hown, he⟩
  · exact .inr ⟨t, he, ht.cause, ht.faultPc, ht.faultWord⟩

/-- Settles O10: only STEP asks whether a fault is latched, and only RESET clears it. -/
theorem haltedCommands : Obligations.HaltedCommands := by
  intro s hc
  refine ⟨stepCommand_halted hc, ?_, fun k p => ?_, fun bytes hlen => ?_, ?_⟩
  · exact ⟨s.tick, rfl, tickTimer_toNat s.dt, tickTimer_toNat s.st, rfl⟩
  · exact ⟨s.setKey k p, rfl, Vector.getElem_set_self .., rfl⟩
  · obtain ⟨_, ⟨⟩, hread, -⟩ := (loadIsAllOrNothing s bytes).1 hlen
    exact ⟨s.load bytes, rfl, hread, s.load_cause bytes, s.load_faultPc bytes, s.load_faultWord bytes⟩
  · exact ⟨s.resetCommand, rfl, rfl, rfl⟩

end Sys2Proof.Machine
end

section
/-! PROOFS. Reset, the machine that never stops by itself, the halt loop and the end of a run (70_reset_and_hazards.md R260,
R263, R270). -/

namespace Sys2Proof.Machine

/-! ### Every command answers (R50, R270) -/

/-- Every host command answers a next state: STEP latches its faults, and no other command can fail (R49, R50). -/
theorem command_answers (c : Command) (s : State) : ∃ t, command c s = .next t := by
  cases c with
  | step r =>
    obtain ⟨t, he, -⟩ := stepCommand_keeps r s
    exact ⟨t, he⟩
  | tick | setKey | load | reset => exact ⟨_, rfl⟩

/-- Settles O13: a step is STEP with a free draw or the first pending command, and every command answers. -/
theorem everyStepAnswersNext : Obligations.EveryStepAnswersNext := by
  intro s
  cases hp : s.pending with
  | nil => exact step_of_none hp ▸ command_answers (.step _) s.takeDraw
  | cons c rest => exact step_of_pending hp ▸ command_answers c { s with pending := rest }

/-! ### Reset (R260, R263) -/

/-- Settles O50: the two bytes at 0x200 are zero after reset, which is the illegal word of O9. -/
theorem firstStepAfterResetFaults : Obligations.FirstStepAfterResetFaults := by
  intro r
  obtain ⟨-, hzero⟩ := illegalWordFault State.reset r rfl (by decide)
  exact hzero (by decide) (by decide)

/-- Settles O54: the invariant that every command keeps starts at reset. -/
theorem resetMeetsInvariant : Obligations.ResetMeetsInvariant := inv_reset

/-! ### The halt loop (R123, R270 b) -/

/-- The word at the pc is the jump to the pc (R270 b). -/
theorem State.atHaltLoop_eq_true {s : State} : s.atHaltLoop = true ↔ s.fetchWord = some (0x1000 + s.pc) := beq_iff_eq

/-- A pc that a word was fetched from is below the fetch bound (R63). -/
theorem State.pc_lt_of_fetchWord {s : State} {w : Word} (h : s.fetchWord = some w) : s.pc.toNat < 0xFFF := by
  obtain ⟨-, hf⟩ | ⟨hlt, -⟩ := s.fetchWord_cases
  · exact nomatch hf.symm.trans h
  · exact hlt

/-- A word below 0x1000 is the zero extension of its low twelve bits. -/
theorem zext_setWidth {a : Word} (h : a.toNat < 0x1000) : Addr.zext (a.setWidth 12) = a := by
  apply BitVec.eq_of_toNat_eq
  rw [Addr.zext, BitVec.toNat_setWidth, BitVec.toNat_setWidth]
  omega

/-- The word of a jump is its target with the family digit 1 above it (R95). -/
theorem encode_jp_setWidth {a : Word} (h : a.toNat < 0x1000) : encode (.jp (a.setWidth 12)) = 0x1000 + a := by
  apply BitVec.eq_of_toNat_eq
  have hfamily : (0x1000 : Word).toNat = 0x1000 := rfl
  rw [encode, toNat_encodeNnn (by decide), BitVec.toNat_setWidth, BitVec.toNat_add, hfamily]
  omega

/-- A jump to its own address changes nothing but KEY_WAIT (R123). -/
theorem exec_jp_self {s : State} (h : s.pc.toNat < 0x1000) :
    exec (.jp (s.pc.setWidth 12)) s = .next { s with keyWait := false } := by
  change Host.Outcome.next (s.advance.jump (Addr.zext (s.pc.setWidth 12))) = _
  rw [zext_setWidth h]
  rfl

/-- STEP at the halt loop executes the jump to the pc. -/
theorem stepCommand_of_atHaltLoop {s : State} (hc : s.cause = 0) (h : s.atHaltLoop = true) (r : Byte) :
    stepCommand r s = .next { s with rnd := r, keyWait := false } := by
  have hf := State.atHaltLoop_eq_true.mp h
  have hpc : s.pc.toNat < 0x1000 := (State.pc_lt_of_fetchWord hf).trans (by decide)
  have hn : s.nextInstr = .ok (.jp (s.pc.setWidth 12)) :=
    State.nextInstr_of_fetchWord (hf.trans (congrArg some (encode_jp_setWidth hpc).symm))
  rw [stepCommand_instr hc hn]
  exact exec_jp_self (s := s.latchRnd r) hpc

/-- The halt loop is a final state (R270). -/
theorem State.final_of_atHaltLoop {s : State} (h : s.atHaltLoop = true) : s.final = true := by
  rw [State.final, h, Bool.or_true]

/-- Settles O53: the jump keeps the pc and the memory, all that the halt loop is read from. -/
theorem haltLoopStaysFinal : Obligations.HaltLoopStaysFinal := by
  intro s r hc h
  have hstep : command (.step r) s = .next { s with rnd := r, keyWait := false } := stepCommand_of_atHaltLoop hc h r
  refine ⟨hstep, fun t ht => ?_⟩
  cases hstep.symm.trans ht
  exact ⟨h, State.final_of_atHaltLoop h⟩

/-! ### The end of a run (R270) -/

/-- A final STEP boundary has a first one at or before it. -/
theorem StepBoundary.exists_endsAt {k : Nat} {s u : State} (hu : StepBoundary k s u) (hfin : u.final = true) :
    ∃ j t, j ≤ k ∧ EndsAt j s t := by
  induction k using Nat.strong_induction_on generalizing u with
  | _ k ih =>
    by_cases hearlier : ∃ j v, j < k ∧ StepBoundary j s v ∧ v.final = true
    · obtain ⟨j, v, hjk, hv, hvfin⟩ := hearlier
      obtain ⟨i, t, hij, ht⟩ := ih j hjk hv hvfin
      exact ⟨i, t, hij.trans hjk.le, ht⟩
    · refine ⟨k, u, le_rfl, hu, hfin, fun j v hjk hv => ?_⟩
      exact Bool.eq_false_iff.mpr fun hvfin => hearlier ⟨j, v, hjk, hv, hvfin⟩

/-- No end of a run comes after a final STEP boundary. -/
theorem EndsAt.le_of_final {j k : Nat} {s t u : State} (ht : EndsAt k s t) (hu : StepBoundary j s u)
    (hfin : u.final = true) : k ≤ j := by
  obtain ⟨-, -, hfirst⟩ := ht
  exact Nat.le_of_not_lt fun hjk => Bool.false_ne_true ((hfirst j u hjk hu).symm.trans hfin)

/-- A run ends once: each of two ends is no later than the other. -/
theorem EndsAt.unique {j k : Nat} {s t u : State} (ht : EndsAt k s t) (hu : EndsAt j s u) : j = k ∧ u = t := by
  have ⟨htb, htfin, _⟩ := ht
  have ⟨hub, hufin, _⟩ := hu
  obtain rfl := Nat.le_antisymm (hu.le_of_final htb htfin) (ht.le_of_final hub hufin)
  exact ⟨rfl, htb.unique hub⟩

/-- No fault is latched at a STEP boundary of a safe run: before the end no boundary is final, and the end is not halted. -/
theorem SafeRun.cause_eq_zero {j k : Nat} {s t u : State} (h : SafeRun k s t) (hjk : j ≤ k)
    (hu : StepBoundary j s u) : u.cause = 0 := by
  obtain ⟨⟨htb, -, hfirst⟩, hrunning, -⟩ := h
  obtain hlt | rfl := hjk.lt_or_eq
  · exact (State.final_eq_false.mp (hfirst j u hlt hu)).1
  · cases htb.unique hu
    exact State.halted_eq_false.mp hrunning

/-- Settles O57: the first final STEP boundary exists, is the only end, and no boundary of a safe run up to it has a fault. -/
theorem endOfRunIsFirstAndOnly : Obligations.EndOfRunIsFirstAndOnly := by
  refine ⟨fun s u k hu hfin => ?_, fun s t u j k h hjk hu => h.cause_eq_zero hjk hu⟩
  obtain ⟨j, t, hjk, ht⟩ := hu.exists_endsAt hfin
  exact ⟨j, t, hjk, ht, fun _ _ ht' => ht.unique ht'⟩

end Sys2Proof.Machine
end

section
/-! PROOFS. What one step accepts: the decoded instruction, the first pending command, a word placed where the fetch reads;
and the fields after RESET and after construction (10_state.md R50, R51; 60_exceptions.md R220; 70_reset_and_hazards.md R260,
R261). -/

namespace Sys2Proof.Machine

/-! ### The step (R220) -/

/-- Settles O6: STEP runs a legal word in reach, and the model's step is such a STEP with a free draw. -/
theorem stepRunsDecodedInstruction : Obligations.StepRunsDecodedInstruction := by
  intro s i hc hpc hd
  have hn : s.nextInstr = .ok i := State.nextInstr_of_decode hpc hd
  refine ⟨stepCommand_instr hc hn, fun hp => ?_⟩
  rw [step_of_none hp, State.takeDraw_running hc]
  exact stepCommand_instr (s := { s with draws := s.draws + 1 }) hc hn _

/-! ### A word placed where the fetch reads (R63, R64) -/

/-- The pc that `withFetchWord` leaves can be fetched from (R63). -/
theorem State.pc_withFetchWord_lt (s : State) (nbits w : Nat) : (s.withFetchWord nbits w).pc.toNat < 0xFFF := by
  simp only [State.withFetchWord]
  split
  · assumption
  · decide

/-- The fetch reads back the word that `withFetchWord` has placed (R64). -/
theorem State.wordOfBytes_withFetchWord (s : State) (w : Nat) :
    wordOfBytes ((s.withFetchWord 16 w).readMem (s.withFetchWord 16 w).pc.toNat)
      ((s.withFetchWord 16 w).readMem ((s.withFetchWord 16 w).pc.toNat + 1)) = BitVec.ofNat 16 w := by
  have hw : BitVec.ofNat 16 (w % 2 ^ 16) = BitVec.ofNat 16 w := by
    apply BitVec.eq_of_toNat_eq
    simp only [BitVec.toNat_ofNat, Nat.mod_mod]
  simp only [State.withFetchWord, State.readMem, Memory.read_writeList, hw]
  simp [wordOfBytes_bytes]

/-- Settles O56: `withFetchWord` meets every condition of O6, with the word it has placed. -/
theorem fetchWordRunsNext : Obligations.FetchWordRunsNext := by
  intro s w i hw
  rw [decodeTableWord_eq, ← s.wordOfBytes_withFetchWord w] at hw
  obtain ⟨-, hstep⟩ := stepRunsDecodedInstruction (s.withFetchWord 16 w) i rfl (s.pc_withFetchWord_lt 16 w) hw
  exact hstep rfl

/-! ### The pending commands (R50, R51) -/

/-- Executing an instruction accepts no command. -/
theorem exec_keeps_pending {i : Instr} {s t : State} (hx : exec i s = .next t) : t.pending = s.pending := by
  obtain ⟨c, -, he⟩ | ⟨u, he, hu⟩ := exec_cases i s
  · cases he.symm.trans hx
    rfl
  · cases he.symm.trans hx
    exact hu.pending

theorem stepCommand_keeps_pending {r : Byte} {s t : State} (hst : stepCommand r s = .next t) : t.pending = s.pending := by
  obtain ⟨-, he⟩ | ⟨-, c, w, -, he⟩ | ⟨-, i, -, he⟩ := stepCommand_cases r s
  · cases he.symm.trans hst
    rfl
  · cases he.symm.trans hst
    rfl
  · exact exec_keeps_pending (s := s.latchRnd r) (he.symm.trans hst)

/-- What the host has still to issue is no state of the block: no command reaches it (R47). -/
theorem command_keeps_pending {c : Command} {s t : State} (h : command c s = .next t) : t.pending = s.pending := by
  cases c with
  | step r => exact stepCommand_keeps_pending h
  | load bytes => cases h; exact s.load_pending bytes
  | tick | setKey | reset => cases h; rfl

/-- Settles O7: the step is the first pending command, and no command reaches those behind it. -/
theorem stepAcceptsPendingCommand : Obligations.StepAcceptsPendingCommand := by
  intro s c rest hp
  have hstep := step_of_pending hp
  exact ⟨hstep, fun t ht => command_keeps_pending (hstep ▸ ht)⟩

/-! ### RESET and construction (R260, R261) -/

/-- RESET and construction leave the same state but for the host's three fields. -/
theorem eq_reset_of_command_reset_or_eq {s t : State} (h : command .reset s = .next t ∨ t = State.reset) :
    ∃ r d p, t = { State.reset with rnd := r, draws := d, pending := p } := by
  obtain h | rfl := h
  · cases h
    exact ⟨s.rnd, s.draws, s.pending, rfl⟩
  · exact ⟨0, 0, [], rfl⟩

/-- Memory that nothing has written is zero above the font (R260). -/
theorem Memory.unlisted_of_ge {a : Nat} (h : 0x50 ≤ a) : Memory.unlisted a = 0 :=
  List.getD_eq_default _ _ h

/-- Settles O49: the host's three fields apart the state is `State.reset`, whose memory lists nothing and so reads as FONT
below 0x50 (R42) and as zero above. -/
theorem resetSetsEveryField : Obligations.ResetSetsEveryField := by
  intro s t h
  obtain ⟨r, d, p, rfl⟩ := eq_reset_of_command_reset_or_eq h
  have hv : ∀ r, State.reset.readV r = 0 := by decide
  have hstack : ∀ j : Fin 16, State.reset.stack[j.val] = 0 := by decide
  have hkey : ∀ k : Fin 16, State.reset.key[k.val] = false := by decide
  refine ⟨hv, rfl, rfl, rfl, hstack, rfl, rfl, hkey, State.cell_of_fb_eq_clearFb rfl, fun d hd => ?_,
    fun a => Memory.unlisted_of_ge, rfl, rfl, rfl, rfl, rfl⟩
  interval_cases d <;> rfl

end Sys2Proof.Machine
end
